-- ==== Sys2Proof/Word.lean ====
section
/-! DEFINITION. The two word types of the block: the 8-bit byte of the frame memory and of the panel port, and the
32-bit host word (spec/00_scope.md R8, spec/30_encoding.md R80). -/

namespace Sys2Proof

/-- A byte is 8 bits, bit 7 its most significant bit (R8). -/
abbrev Byte := BitVec 8

/-- A host command word or host register value, a 32-bit number (R80, R24). -/
abbrev Word := BitVec 32

end Sys2Proof
end

