-- ==== Sys2Proof/Syntax.lean ====
section
/-! DEFINITION. The instructions: one constructor per row of spec/opcode_table.json, the 17 host operations of
spec/30_encoding.md R84 and the 15 panel opcode bytes of R95. Operands are the assembled ones of R82: signed
coordinates, unsigned numbers, a colour where the spec writes a colour. -/

namespace Sys2Proof

/-- The four colours (R110). -/
inductive Color where
  | black | white | red | yellow
deriving DecidableEq, Repr, Inhabited

/-- The rows of the opcode table. -/
inductive Instr where
  -- ColorModel family (spec/40_color_model.md)
  /-- BITMASK color, pos (R117). -/
  | bitmask (color : Color) (pos : Nat)
  /-- DECODE code (R118): any 2-bit code. -/
  | decode (code : BitVec 2)
  /-- DEFBYTE (R119). -/
  | defbyte
  -- FrameBuffer family (spec/41_framebuffer.md)
  /-- FBINIT (R132). -/
  | fbinit
  /-- SETPX x, y, color (R133). -/
  | setpx (x y : Int) (color : Color)
  /-- GETPX x, y (R134). -/
  | getpx (x y : Int)
  /-- FBRD addr (R135). -/
  | fbrd (addr : Nat)
  -- PanelDriver family (spec/43_panel_driver.md)
  /-- INIT (R172). -/
  | init
  /-- WAKE (R173). -/
  | wake
  /-- SLEEP (R174). -/
  | sleep
  /-- UPDATE len (R175). -/
  | update (len : Nat)
  /-- DISPLAY (R176). -/
  | display
  /-- UPDDISP len (R177). -/
  | upddisp (len : Nat)
  /-- CLEAR (R178). -/
  | clear
  /-- GETBG (R179). -/
  | getbg
  /-- SETBG color (R180). -/
  | setbg (color : Color)
  /-- SETLUT imm8 (R181). -/
  | setlut (imm8 : Nat)
  -- Panel opcode bytes, each sent by PSQ in command mode (spec/30_encoding.md R95)
  | pPanelSetting
  | pPowerSetting
  | pPowerOff
  | pPowerOn
  | pBoosterSoftStart
  | pDeepSleep
  | pDataStart
  | pDataStop
  | pDisplayRefresh
  | pPllControl
  | pVcomDataInterval
  | pSpiFlashControl
  | pPowerSaving
  | pVendor4D
  | pVendorE9
deriving DecidableEq, Repr

end Sys2Proof
end

