-- ==== Sys2Proof/WellFormed.lean ====
section
/-! DEFINITION. Well-formed instructions: each operand lies in the range its field of the command word can hold
(spec/30_encoding.md R82, R87). -/

namespace Sys2Proof

/-- `x` and `y` are signed 12-bit numbers (R82). -/
def coordOk (v : Int) : Bool := decide (-2048 ≤ v) && decide (v ≤ 2047)

/-- The operand ranges of R82; an operand whose type has only legal values needs no check. -/
def Instr.wf : Instr → Bool
  | .bitmask _ pos => decide (pos ≤ 4095)
  | .setpx x y _ => coordOk x && coordOk y
  | .getpx x y => coordOk x && coordOk y
  | .fbrd addr => decide (addr ≤ 131071)
  | .update len => decide (len ≤ 1048575)
  | .upddisp len => decide (len ≤ 1048575)
  | .setlut imm8 => decide (imm8 ≤ 255)
  | .decode _ => true
  | .defbyte => true
  | .fbinit => true
  | .init => true
  | .wake => true
  | .sleep => true
  | .display => true
  | .clear => true
  | .getbg => true
  | .setbg _ => true
  | .pPanelSetting => true
  | .pPowerSetting => true
  | .pPowerOff => true
  | .pPowerOn => true
  | .pBoosterSoftStart => true
  | .pDeepSleep => true
  | .pDataStart => true
  | .pDataStop => true
  | .pDisplayRefresh => true
  | .pPllControl => true
  | .pVcomDataInterval => true
  | .pSpiFlashControl => true
  | .pPowerSaving => true
  | .pVendor4D => true
  | .pVendorE9 => true

end Sys2Proof
end

