-- ==== Sys2Proof/Decode.lean ====
section
/-! DEFINITION. Decoding and encoding: the host command word by its fields (spec/30_encoding.md R80 to R86), the panel
opcode byte by the table of R95, and the check of the initialization table, which speaks of those bytes
(spec/43_panel_driver.md R171). Decoding is total; what it refuses it refuses by name. -/

namespace Sys2Proof

/-! ### Colour codes -/

/-- `code` (R110). -/
def Color.code : Color → BitVec 2
  | .black => 0b00#2
  | .white => 0b01#2
  | .red => 0b10#2
  | .yellow => 0b11#2

/-- `decode`, total (R111). -/
def Color.ofCode (b : BitVec 2) : Color :=
  match b.toNat with
  | 0 => .black
  | 1 => .white
  | 2 => .red
  | _ => .yellow

/-! ### Why a word or a byte is no instruction -/

/-- The cases of R85, and a byte outside the table of R95. -/
inductive Reject where
  /-- R85 (a): `op` is none of the 17 values. -/
  | unassignedOp
  /-- R85 (b): a bit the format marks "zero" is 1. -/
  | zeroBitSet
  /-- R85 (c): GETPX with `c ≠ 0`. -/
  | getpxColor
  /-- R85 (d): DECODE or SETBG with `pos ≠ 0`. -/
  | posNotZero
  /-- A command-mode byte that is not one of the 15 of R95. -/
  | notPanelOpcode
deriving DecidableEq, Repr

/-- What decoding answers. -/
inductive Decoded where
  | instr (i : Instr)
  | reject (r : Reject)
deriving DecidableEq, Repr

/-- The instruction, if there is one. -/
def Decoded.toOption : Decoded → Option Instr
  | .instr i => some i
  | .reject _ => none

/-! ### The host command word -/

/-- `op = cw[31:26]` (R81). -/
def fieldOp (cw : Word) : BitVec 6 := cw.extractLsb' 26 6

/-- `c = cw[25:24]` (R82). -/
def fieldC (cw : Word) : BitVec 2 := cw.extractLsb' 24 2

/-- `y = cw[23:12]`, before its sign is read (R82). -/
def fieldY (cw : Word) : BitVec 12 := cw.extractLsb' 12 12

/-- `x = cw[11:0]`, before its sign is read; also `pos` (R82). -/
def fieldX (cw : Word) : BitVec 12 := cw.extractLsb' 0 12

/-- `addr = cw[16:0]` (R82). -/
def fieldAddr (cw : Word) : BitVec 17 := cw.extractLsb' 0 17

/-- `len = cw[19:0]` (R82). -/
def fieldLen (cw : Word) : BitVec 20 := cw.extractLsb' 0 20

/-- `imm8 = cw[7:0]` (R82). -/
def fieldImm (cw : Word) : BitVec 8 := cw.extractLsb' 0 8

/-- Format N: bits 25:0 must be zero (R81, R85). -/
def decodeFormatN (cw : Word) (i : Instr) : Decoded :=
  if cw.extractLsb' 0 26 = 0#26 then .instr i else .reject .zeroBitSet

/-- Format C with `pos` required zero, DECODE and SETBG: bits 23:12 and 11:0 must be zero (R81, R85). -/
def decodeFormatC0 (cw : Word) (i : Instr) : Decoded :=
  if fieldY cw ≠ 0#12 then .reject .zeroBitSet
  else if fieldX cw ≠ 0#12 then .reject .posNotZero
  else .instr i

/-- Format L: bits 25:20 must be zero (R81, R85). -/
def decodeFormatL (cw : Word) (i : Instr) : Decoded :=
  if cw.extractLsb' 20 6 = 0#6 then .instr i else .reject .zeroBitSet

/-- The operation map of R84 with the operand assembly of R82 and the checks of R85. -/
def decodeHost (cw : Word) : Decoded :=
  match (fieldOp cw).toNat with
  | 0x01 => if fieldY cw = 0#12 then .instr (.bitmask (Color.ofCode (fieldC cw)) (fieldX cw).toNat)
            else .reject .zeroBitSet
  | 0x02 => decodeFormatC0 cw (.decode (fieldC cw))
  | 0x03 => decodeFormatN cw .defbyte
  | 0x08 => decodeFormatN cw .fbinit
  | 0x09 => .instr (.setpx (fieldX cw).toInt (fieldY cw).toInt (Color.ofCode (fieldC cw)))
  | 0x0A => if fieldC cw = 0#2 then .instr (.getpx (fieldX cw).toInt (fieldY cw).toInt)
            else .reject .getpxColor
  | 0x0B => if cw.extractLsb' 17 9 = 0#9 then .instr (.fbrd (fieldAddr cw).toNat) else .reject .zeroBitSet
  | 0x10 => decodeFormatN cw .init
  | 0x11 => decodeFormatN cw .wake
  | 0x12 => decodeFormatN cw .sleep
  | 0x13 => decodeFormatL cw (.update (fieldLen cw).toNat)
  | 0x14 => decodeFormatN cw .display
  | 0x15 => decodeFormatL cw (.upddisp (fieldLen cw).toNat)
  | 0x16 => decodeFormatN cw .clear
  | 0x17 => decodeFormatN cw .getbg
  | 0x18 => decodeFormatC0 cw (.setbg (Color.ofCode (fieldC cw)))
  | 0x19 => if cw.extractLsb' 8 18 = 0#18 then .instr (.setlut (fieldImm cw).toNat) else .reject .zeroBitSet
  | _ => .reject .unassignedOp

/-- One row of the table of R84: its `mask` and its `match`. -/
structure HostRow where
  name    : String
  mask    : Word
  pattern : Word
deriving DecidableEq, Repr

/-- The mask and match columns of R84, in the table's order. -/
def hostRows : List HostRow :=
  [⟨"BITMASK", 0xFCFFF000#32, 0x04000000#32⟩, ⟨"DECODE", 0xFCFFFFFF#32, 0x08000000#32⟩,
   ⟨"DEFBYTE", 0xFFFFFFFF#32, 0x0C000000#32⟩, ⟨"FBINIT", 0xFFFFFFFF#32, 0x20000000#32⟩,
   ⟨"SETPX", 0xFC000000#32, 0x24000000#32⟩, ⟨"GETPX", 0xFF000000#32, 0x28000000#32⟩,
   ⟨"FBRD", 0xFFFE0000#32, 0x2C000000#32⟩] ++
  [⟨"INIT", 0xFFFFFFFF#32, 0x40000000#32⟩, ⟨"WAKE", 0xFFFFFFFF#32, 0x44000000#32⟩,
   ⟨"SLEEP", 0xFFFFFFFF#32, 0x48000000#32⟩, ⟨"UPDATE", 0xFFF00000#32, 0x4C000000#32⟩,
   ⟨"DISPLAY", 0xFFFFFFFF#32, 0x50000000#32⟩, ⟨"UPDDISP", 0xFFF00000#32, 0x54000000#32⟩,
   ⟨"CLEAR", 0xFFFFFFFF#32, 0x58000000#32⟩, ⟨"GETBG", 0xFFFFFFFF#32, 0x5C000000#32⟩,
   ⟨"SETBG", 0xFCFFFFFF#32, 0x60000000#32⟩, ⟨"SETLUT", 0xFFFFFF00#32, 0x64000000#32⟩]

/-- `cw & mask = match`: the word selects the row (R84). -/
def HostRow.selects (r : HostRow) (cw : Word) : Bool := cw &&& r.mask == r.pattern

/-! ### The panel opcode byte -/

/-- panel setting (R95). -/
def opPanelSetting : Byte := 0x00#8
/-- power setting (R95). -/
def opPowerSetting : Byte := 0x01#8
/-- power off (R95). -/
def opPowerOff : Byte := 0x02#8
/-- power on (R95). -/
def opPowerOn : Byte := 0x04#8
/-- booster soft-start (R95). -/
def opBoosterSoftStart : Byte := 0x06#8
/-- deep sleep (R95). -/
def opDeepSleep : Byte := 0x07#8
/-- start data transmission (R95). -/
def opDataStart : Byte := 0x10#8
/-- data stop (R95). -/
def opDataStop : Byte := 0x11#8
/-- display refresh (R95). -/
def opDisplayRefresh : Byte := 0x12#8
/-- PLL control (R95). -/
def opPllControl : Byte := 0x30#8
/-- VCOM/data-interval (R95). -/
def opVcomDataInterval : Byte := 0x50#8
/-- SPI-flash control (R95). -/
def opSpiFlashControl : Byte := 0x65#8
/-- power-saving (R95). -/
def opPowerSaving : Byte := 0xE3#8
/-- fixed vendor opcode (R95). -/
def opVendor4D : Byte := 0x4D#8
/-- fixed vendor opcode (R95). -/
def opVendorE9 : Byte := 0xE9#8

/-- The table of R95: every byte PSQ sends in command mode is one of these 15. -/
def decodePanel (b : Byte) : Decoded :=
  match b.toNat with
  | 0x00 => .instr .pPanelSetting
  | 0x01 => .instr .pPowerSetting
  | 0x02 => .instr .pPowerOff
  | 0x04 => .instr .pPowerOn
  | 0x06 => .instr .pBoosterSoftStart
  | 0x07 => .instr .pDeepSleep
  | 0x10 => .instr .pDataStart
  | 0x11 => .instr .pDataStop
  | 0x12 => .instr .pDisplayRefresh
  | 0x30 => .instr .pPllControl
  | 0x50 => .instr .pVcomDataInterval
  | 0x65 => .instr .pSpiFlashControl
  | 0xE3 => .instr .pPowerSaving
  | 0x4D => .instr .pVendor4D
  | 0xE9 => .instr .pVendorE9
  | _ => .reject .notPanelOpcode

/-- The nine configuration opcodes an `INIT_SEQ` may list (R171 (b)). -/
def configOpcodes : List Byte :=
  [opPanelSetting, opPowerSetting, opBoosterSoftStart, opPllControl, opVcomDataInterval, opSpiFlashControl,
   opPowerSaving, opVendor4D, opVendorE9]

/-- The seven opcodes an `INIT_SEQ` must list at least once (R171 (c)). -/
def requiredOpcodes : List Byte :=
  [opPanelSetting, opVcomDataInterval, opSpiFlashControl, opPowerSaving, opPllControl, opVendor4D, opVendorE9]

/-- The check of R171 on an initialization table: (a) no payload is empty, (b) only configuration opcodes, (c) each
required opcode occurs. -/
def initSeqOk (pairs : List (Byte × List Byte)) : Bool :=
  pairs.all (fun p => !p.2.isEmpty) &&
  pairs.all (fun p => configOpcodes.contains p.1) &&
  requiredOpcodes.all (fun o => (pairs.map Prod.fst).contains o)

/-! ### The encoder, from the same tables -/

/-- A command word from its 6-bit `op` and the 26 bits of its format (R81). -/
def wordOf (op : BitVec 6) (operands : BitVec 26) : Word := op ++ operands

/-- The operand bits of formats N, P and C: `c` in 25:24, bits 23:12, bits 11:0 (R81). -/
def operandsCYX (c : BitVec 2) (y x : BitVec 12) : BitVec 26 := c ++ (y ++ x)

/-- An instruction's bits: how many there are (32 for a host command, 8 for a panel opcode byte) and their value. -/
def encode : Instr → Nat × Nat
  | .bitmask c pos => (32, (wordOf 0x01#6 (operandsCYX c.code 0#12 (BitVec.ofNat 12 pos))).toNat)
  | .decode c => (32, (wordOf 0x02#6 (operandsCYX c 0#12 0#12)).toNat)
  | .defbyte => (32, (wordOf 0x03#6 0#26).toNat)
  | .fbinit => (32, (wordOf 0x08#6 0#26).toNat)
  | .setpx x y c => (32, (wordOf 0x09#6 (operandsCYX c.code (BitVec.ofInt 12 y) (BitVec.ofInt 12 x))).toNat)
  | .getpx x y => (32, (wordOf 0x0A#6 (operandsCYX 0#2 (BitVec.ofInt 12 y) (BitVec.ofInt 12 x))).toNat)
  | .fbrd addr => (32, (wordOf 0x0B#6 ((0#9 : BitVec 9) ++ BitVec.ofNat 17 addr)).toNat)
  | .init => (32, (wordOf 0x10#6 0#26).toNat)
  | .wake => (32, (wordOf 0x11#6 0#26).toNat)
  | .sleep => (32, (wordOf 0x12#6 0#26).toNat)
  | .update len => (32, (wordOf 0x13#6 ((0#6 : BitVec 6) ++ BitVec.ofNat 20 len)).toNat)
  | .display => (32, (wordOf 0x14#6 0#26).toNat)
  | .upddisp len => (32, (wordOf 0x15#6 ((0#6 : BitVec 6) ++ BitVec.ofNat 20 len)).toNat)
  | .clear => (32, (wordOf 0x16#6 0#26).toNat)
  | .getbg => (32, (wordOf 0x17#6 0#26).toNat)
  | .setbg c => (32, (wordOf 0x18#6 (operandsCYX c.code 0#12 0#12)).toNat)
  | .setlut imm8 => (32, (wordOf 0x19#6 ((0#18 : BitVec 18) ++ BitVec.ofNat 8 imm8)).toNat)
  | .pPanelSetting => (8, opPanelSetting.toNat)
  | .pPowerSetting => (8, opPowerSetting.toNat)
  | .pPowerOff => (8, opPowerOff.toNat)
  | .pPowerOn => (8, opPowerOn.toNat)
  | .pBoosterSoftStart => (8, opBoosterSoftStart.toNat)
  | .pDeepSleep => (8, opDeepSleep.toNat)
  | .pDataStart => (8, opDataStart.toNat)
  | .pDataStop => (8, opDataStop.toNat)
  | .pDisplayRefresh => (8, opDisplayRefresh.toNat)
  | .pPllControl => (8, opPllControl.toNat)
  | .pVcomDataInterval => (8, opVcomDataInterval.toNat)
  | .pSpiFlashControl => (8, opSpiFlashControl.toNat)
  | .pPowerSaving => (8, opPowerSaving.toNat)
  | .pVendor4D => (8, opVendor4D.toNat)
  | .pVendorE9 => (8, opVendorE9.toNat)

/-- The instruction read from a table row's bits: a 32-bit row is a host command word, which is one number with no
byte order inside the block (R80, D27); an 8-bit row is a byte PSQ sends in command mode (R95). -/
def decodeTableWord (nbits w : Nat) : Option Instr :=
  if nbits = 32 then (decodeHost (BitVec.ofNat 32 w)).toOption
  else if nbits = 8 then (decodePanel (BitVec.ofNat 8 w)).toOption
  else none

end Sys2Proof
end

