-- ==== Sys2Proof/Config.lean ====
section
/-! DEFINITION. What a build of the block fixes (spec/00_scope.md R7) and what the environment may do at a step
(spec/20_memory.md R62). Both are plain data; the constants with no body stand for values nothing is known of. -/

namespace Sys2Proof

/-- SHIFT_DIR (R7, R53). -/
inductive ShiftDir where
  | left | right
deriving DecidableEq, Repr, Inhabited

/-- The mode of the command/data select output (R29). -/
inductive DcMode where
  | command | data
deriving DecidableEq, Repr, Inhabited

/-- INIT_SEQ together with the check the spec asks a model to make of it (R171, U7): a table that fails the check is
no value of this type. The values after `:=` are the test-only table of spec/95_test_vectors.md section 3; Lean asks for
one inhabitant of the type of an opaque constant, and this is it: nothing takes it for a build's table (R7 gives no
default). -/
structure InitSeq where
  pairs : List (Byte × List Byte) :=
    [(0x4D#8, [0xD0#8]), (0x00#8, [0xD1#8, 0xD2#8]), (0x50#8, [0xD3#8]), (0x65#8, [0xD4#8]), (0xE3#8, [0xD5#8]),
     (0x30#8, [0xD6#8]), (0xE9#8, [0xD7#8])]
  ok : initSeqOk pairs = true := by decide
deriving DecidableEq, Repr, Inhabited

/-- The open parameters of R7, constants of a build. -/
structure Build where
  /-- SHIFT_DIR. -/
  shiftDir : ShiftDir
  /-- BUSY_IS_LOW. -/
  busyIsLow : Bool
  /-- MAX_CHUNK less 1, so that MAX_CHUNK ≥ 1 (R7) whatever the number. -/
  maxChunkPred : Nat
  /-- RST_INITIAL_DELAY_MS. -/
  rstInitialDelayMs : Nat
  /-- RST_HOLD_MS. -/
  rstHoldMs : Nat
  /-- INIT_SEQ. -/
  initSeq : InitSeq
  /-- DC_CMD_LEVEL, a bit: true is 1. -/
  dcCmdLevel : Bool
  /-- WAIT_TIMEOUT_MS. -/
  waitTimeoutMs : Option Nat
deriving DecidableEq, Repr, Inhabited

/-- MAX_CHUNK (R7). -/
def Build.maxChunk (b : Build) : Nat := b.maxChunkPred + 1

/-- What the environment does during one step: each field is a value the spec leaves free (spec/93 U5, U10 to U13). -/
structure EnvIn where
  /-- The level of the BUSY input (R62): true is 1. -/
  busy : Bool
  /-- The transport's answer to a BusWrite (R155). -/
  xferOk : Bool
  /-- How many bytes of a failed transfer reached the panel, cut to its length (R155, U12). -/
  delivered : Nat
  /-- Whether a wait's timer gives up now, in a build with WAIT_TIMEOUT_MS (R156). -/
  timeout : Bool
  /-- Whether the host moves before PSQ, when both can (R11). -/
  hostFirst : Bool
  /-- The lengths of the sub-transfers of an operation accepted now, one list for each of its data transfers, in
  order (R152, U5). -/
  cuts : List (List Nat)
  /-- The DC latch after a block reset applied now (R32, U11). -/
  dcAfterReset : DcMode
  /-- The RST latch after a block reset applied now (R32, U11). -/
  rstAfterReset : Bool
deriving DecidableEq, Repr, Inhabited

/-- The build the block is: nothing is known of it but that its INIT_SEQ passes the check of R171. -/
opaque Config.build : Build

/-- What the environment does at step number `n`, when State.inputs does not say: nothing is known of it. -/
opaque Config.freeInput : Nat → EnvIn

end Sys2Proof
end

