-- ==== Sys2Proof/Machine/State.lean ====
section
/-! DEFINITION. The state of the block (spec/10_state.md R20 to R32), the host accesses still to come, the environment's
draws fixed in advance, and the three observations (panel trace, bytes received by the panel, values read by the host);
why a step can stop; the state after reset. -/

namespace Sys2Proof.Machine

/-- The lifecycle state PSTATE (R23, R215). -/
inductive PState where
  | uninitialized | ready | sleeping
deriving DecidableEq, Repr, Inhabited

/-- The error codes of ERR that have a name (R200). -/
inductive Err where
  | noError | illegalCommand | stateError | sizeMismatch | unsupported | busError | timeout
  /-- Reserved, never raised (R208). -/
  | lineFault
  | rangeError
deriving DecidableEq, Repr, Inhabited

/-- The elementary micro-steps of PSQ (spec/42_panel_link.md R155 to R159). -/
inductive MicroStep where
  | setDC (m : DcMode)
  /-- The level of RST: true is 1. -/
  | setRst (l : Bool)
  | delay (ms : Nat)
  | busWrite (bytes : List Byte)
  | waitIdle
deriving DecidableEq, Repr

/-- The events of the panel trace (R10). -/
inductive Event where
  | setRst (l : Bool)
  | delay (ms : Nat)
  | setDC (m : DcMode)
  | write (bytes : List Byte)
  | writeFail (bytes : List Byte)
  | idle
  | timedOut
deriving DecidableEq, Repr

/-- One action of the host's side (R245): a register read or write by host agent number `who`, at a byte offset with a
width in bytes (R24, R54), or the platform's block reset, which is no agent's access (R230). -/
inductive HostAct where
  | read (who off width : Nat)
  | write (who off width : Nat) (w : Word)
  | blockReset
deriving DecidableEq, Repr

/-- The frame memory: the bytes that differ from its reset content, by rising address (R28, R51). -/
abbrev Memory := List Host.Cell

/-- The whole machine. The first eleven fields are the block; the others are what is outside it or observes it. -/
structure State where
  /-- FB (R28). -/
  fb     : Memory
  /-- BG (R26). -/
  bg     : Color
  /-- PSTATE (R23). -/
  pstate : PState
  /-- RUN (R23): true is 1. -/
  run    : Bool
  /-- ERR (R23, R200). -/
  err    : Err
  /-- RESULT (R25). -/
  result : Word
  /-- The DC latch (R29). -/
  dc     : DcMode
  /-- The RST latch (R29): true is 1. -/
  rst    : Bool
  /-- REM (R22); the bytes not yet handed to the transport (R30) are in its BusWrite steps. -/
  rem    : List MicroStep
  /-- The PSTATE the running operation writes when REM becomes empty (R170). -/
  onEnd  : PState
  /-- The constants of the build (R7): no step changes them. -/
  build  : Build
  /-- The actions of the host's side still to come, each agent's in its own order (R244, R245). -/
  host   : List HostAct
  /-- The environment's draws for the next steps; past its end they are free (R62). -/
  inputs : List EnvIn
  /-- The number of steps taken, which tells one free draw from the next. -/
  tick   : Nat
  /-- The panel trace, oldest event first (R10). -/
  trace  : List Event
  /-- The bytes that reached the panel, each with the DC mode it was sent in, oldest first (R155). -/
  rx     : List (DcMode × Byte)
  /-- The agent, the offset and the value of each register read made, oldest first (R57). -/
  reads  : List (Nat × Nat × Word)
deriving DecidableEq, Repr

/-- Why the machine stops with a fault. -/
inductive Fault where
  /-- Raised by Sequencer.psqStep when the next transfer is in command mode and is not exactly one opcode byte of R95.
  R97 says this is never sent; no state reached from reset comes here. Safe: the model stops where the spec gives no
  behaviour. -/
  | notPanelOpcode
deriving DecidableEq, Repr

/-- Why the machine has no meaning for what comes next. -/
inductive Refusal where
  /-- Raised by an arm of exec for an instruction that has no meaning yet. Safe. -/
  | notModelled (mnemonic : String)
  /-- Raised by HostPort.hostStep on a host access that is not 32 bits wide (R54, U14: refuse). Safe. -/
  | hostAccessNot32Bit
  /-- Raised by HostPort.hostStep on a host access whose offset is no multiple of 4 (R54, U14: refuse). Safe. -/
  | hostAccessUnaligned
deriving DecidableEq, Repr

/-- Right after block reset (R32, R230). Where R32 says "unspecified" (`dc`, `rst`) the values are a DESIGN CHOICE
(log 6, log 7, unsafe); `onEnd`, `inputs`, `tick`, `rx` and `reads` are the model's own fields (DESIGN CHOICE, log 2, 9,
10, 13); the build is opaque (log 1). -/
def State.reset : State where
  fb := []
  bg := .white
  pstate := .uninitialized
  run := false
  err := .noError
  result := 0#32
  dc := .command
  rst := false
  rem := []
  onEnd := .uninitialized
  build := Config.build
  host := []
  inputs := []
  tick := 0
  trace := []
  rx := []
  reads := []

end Sys2Proof.Machine
end

