-- ==== Sys2Proof/Machine/Ops.lean ====
section
/-! DEFINITION. The shared operations: the frame memory, the trace, the register writes, the start and the end of an
operation, the one general abort `raise` (spec/60_exceptions.md R205), the block reset (spec/70_reset_and_hazards.md
R230), and the environment's draw of a step. There is no return from an error (R213, R214). -/

namespace Sys2Proof.Machine

/-! ### Constants of the hardware (R5, R6) -/

/-- `W` (R5). -/
def panelWidth : Nat := 800
/-- `H` (R5). -/
def panelHeight : Nat := 480
/-- `BPP` (R5). -/
def bitsPerPixel : Nat := 2
/-- `PPB = 8 / BPP` (R6). -/
def pixelsPerByte : Nat := 8 / bitsPerPixel
/-- `LINE_BYTES = ceil(W * BPP / 8)` (R6). -/
def lineBytes : Nat := (panelWidth * bitsPerPixel + 7) / 8
/-- `FB_LEN = LINE_BYTES * H` (R6). -/
def fbLen : Nat := lineBytes * panelHeight
/-- `CLEAR_COUNT = W * H / 4` (R6). -/
def clearCount : Nat := panelWidth * panelHeight / 4
/-- `RST_SETTLE_MS` (R5). -/
def rstSettleMs : Nat := 200

/-! ### The frame memory (R28, R51) -/

/-- What an address that is not listed reads as: the reset content of every frame byte (R32). -/
def Memory.unlisted : Byte := 0x55#8

/-- `FB[a]`. -/
def Memory.read : Memory → Nat → Byte
  | [], _ => Memory.unlisted
  | (b, v) :: m, a => if a = b then v else Memory.read m a

/-- A cell put in front of a memory, unless its byte is what an unlisted address reads as. -/
def Memory.consCell (a : Nat) (v : Byte) (m : Memory) : Memory :=
  if v = Memory.unlisted then m else (a, v) :: m

/-- `FB[a] <- v`, keeping the canonical form. -/
def Memory.write : Memory → Nat → Byte → Memory
  | [], a, v => Memory.consCell a v []
  | (b, w) :: m, a, v =>
    if a < b then Memory.consCell a v ((b, w) :: m)
    else if a = b then Memory.consCell a v m
    else (b, w) :: Memory.write m a v

/-- The canonical form from address `lo` on: addresses rising, inside the frame, no byte equal to the unlisted one. -/
def Memory.wfFrom (lo : Nat) : Memory → Bool
  | [] => true
  | (a, v) :: m => decide (lo ≤ a) && decide (a < fbLen) && decide (v ≠ Memory.unlisted) && Memory.wfFrom (a + 1) m

/-- The canonical form of the frame memory. -/
def Memory.wf (m : Memory) : Bool := Memory.wfFrom 0 m

/-- The raw view `FB[0], ..., FB[FB_LEN-1]` (R136, R52). -/
def Memory.raw (m : Memory) : List Byte := (List.range fbLen).map m.read

/-! ### The environment's draw (R62) -/

/-- What the environment does in the present step: the draw fixed in advance if there is one, else a free value. -/
def State.input (s : State) : EnvIn :=
  match s.inputs with
  | e :: _ => e
  | [] => Config.freeInput s.tick

/-- A step has been taken: its draw is used up. -/
def State.advance (s : State) : State := { s with inputs := s.inputs.tail, tick := s.tick + 1 }

/-- The ready level of the busy input (R156): true is 1. -/
def readyLevel (b : Build) : Bool := b.busyIsLow

/-! ### Writes -/

/-- `emit e` (R9, R10). -/
def State.emit (e : Event) (s : State) : State := { s with trace := s.trace ++ [e] }

/-- Bytes reach the panel, tagged with the DC mode (R155). -/
def State.receive (bytes : List Byte) (s : State) : State :=
  { s with rx := s.rx ++ bytes.map (fun b => (s.dc, b)) }

/-- The head of REM is taken off (R22). -/
def State.popRem (s : State) : State := { s with rem := s.rem.tail }

/-- `RESULT <- w` (R25). -/
def State.setResult (w : Word) (s : State) : State := { s with result := w }

/-- The frame memory is written (R28). -/
def State.setFb (m : Memory) (s : State) : State := { s with fb := m }

/-- `BG <- c` (R26). -/
def State.setBg (c : Color) (s : State) : State := { s with bg := c }

/-- `PSTATE <- p` (R23). -/
def State.setPstate (p : PState) (s : State) : State := { s with pstate := p }

/-- `DC <- m` (R29). -/
def State.setDc (m : DcMode) (s : State) : State := { s with dc := m }

/-- `RST <- l` (R29). -/
def State.setRst (l : Bool) (s : State) : State := { s with rst := l }

/-! ### The life of an operation (R58, R170) -/

/-- An operation that takes one step is accepted and ends in success in it: RUN goes to 1 and back, `ERR <- 0`
(R58). -/
def State.succeed (s : State) : State := { s with run := false, err := .noError }

/-- An operation is accepted and REM is loaded with its micro-steps; it writes PSTATE `p` at its end (R58, R170). -/
def State.launch (steps : List MicroStep) (p : PState) (s : State) : State :=
  { s with run := true, err := .noError, rem := steps, onEnd := p }

/-- REM is empty: the operation ends in success and writes its PSTATE (R170, R58). -/
def State.finish (s : State) : State := { s with run := false, err := .noError, pstate := s.onEnd }

/-- After a micro-step: the operation ends when REM has become empty (R22, R170). -/
def State.settle (s : State) : State := if s.run && s.rem.isEmpty then s.finish else s

/-! ### Ending in error (R205) -/

/-- Whether the error is raised by a micro-step and not at acceptance (R205). -/
def Err.fromMicroStep : Err → Bool
  | .busError => true
  | .timeout => true
  | .noError => false
  | .illegalCommand => false
  | .stateError => false
  | .sizeMismatch => false
  | .unsupported => false
  | .lineFault => false
  | .rangeError => false

/-- `raise E`, the general abort (R205): REM is emptied, `ERR <- code(E)`, `RUN <- 0`, and PSTATE becomes
Uninitialized if a micro-step raised it; everything else keeps its value. -/
def State.raise (e : Err) (s : State) : State :=
  { s with run := false, err := e, rem := [], pstate := if e.fromMicroStep then .uninitialized else s.pstate }

/-! ### Block reset (R230) -/

/-- Block reset applied in a run: every element of R32 at its value, the two latches at free values of the step (U11),
a running operation discarded, nothing emitted. -/
def State.blockReset (s : State) : State :=
  { s with
    fb := State.reset.fb, bg := State.reset.bg, pstate := State.reset.pstate, run := State.reset.run,
    err := State.reset.err, result := State.reset.result, rem := State.reset.rem, onEnd := State.reset.onEnd,
    dc := s.input.dcAfterReset, rst := s.input.rstAfterReset }

/-! ### Outcomes -/

/-- A change made to the next state, if there is one. -/
def mapNext (f : State → State) : Host.Outcome State Fault Refusal → Host.Outcome State Fault Refusal
  | .next s => .next (f s)
  | .fault r => .fault r
  | .refused r => .refused r

end Sys2Proof.Machine
end

