-- ==== Sys2Proof/Machine/Operands.lean ====
section
/-! DEFINITION. The pure functions on operands: the sub-byte fields of a colour code (spec/40_color_model.md R112 to R116),
the pixel address (spec/41_framebuffer.md R130, R131) and the split of a transfer (spec/42_panel_link.md R152). -/

namespace Sys2Proof.Machine

/-! ### Fields of a byte (R112 to R116) -/

/-- `p = pos mod PPB` (R113). -/
def fieldPos (pos : Nat) : Nat := pos % pixelsPerByte

/-- `shift = p * BPP` (R112). -/
def fieldShift (pos : Nat) : Nat := fieldPos pos * bitsPerPixel

/-- `fieldmask(p)` with `p = pos mod 4` (R112). -/
def fieldmask (dir : ShiftDir) (pos : Nat) : Byte :=
  match dir with
  | .left => 0b00000011#8 <<< fieldShift pos
  | .right => 0b11000000#8 >>> fieldShift pos

/-- The `mask` of `bitmask(c, pos)`: it clears the field (R113). -/
def bitmaskMask (dir : ShiftDir) (pos : Nat) : Byte := ~~~ fieldmask dir pos

/-- The `bits` of `bitmask(c, pos)`: they set the field to `c` (R113). -/
def bitmaskBits (dir : ShiftDir) (c : BitVec 2) (pos : Nat) : Byte :=
  match dir with
  | .left => c.setWidth 8 <<< fieldShift pos
  | .right => (c.setWidth 8 <<< 6) >>> fieldShift pos

/-- `apply(b, c, pos) = (b & mask) | bits` (R114). -/
def applyField (dir : ShiftDir) (b : Byte) (c : BitVec 2) (pos : Nat) : Byte :=
  (b &&& bitmaskMask dir pos) ||| bitmaskBits dir c pos

/-- `extract(b, pos)` (R115). -/
def extractField (dir : ShiftDir) (b : Byte) (pos : Nat) : BitVec 2 :=
  match dir with
  | .left => (b >>> fieldShift pos).setWidth 2
  | .right => (b >>> (6 - fieldShift pos)).setWidth 2

/-- `rep(c) = c * 0x55` (R116). -/
def repByte (c : BitVec 2) : Byte := c.setWidth 8 * 0x55#8

/-- `default_byte() = rep(code(White))` (R116). -/
def defaultByte : Byte := repByte Color.white.code

/-! ### Pixels (R130, R131) -/

/-- `in_range(x, y)`, on signed integers (R130). -/
def inRange (x y : Int) : Bool :=
  decide (0 ≤ x) && decide (x < panelWidth) && decide (0 ≤ y) && decide (y < panelHeight)

/-- `byte_index(x, y) = floor(x * BPP / 8) + y * LINE_BYTES`, for a pixel in range (R131). -/
def byteIndex (x y : Int) : Nat := (x * bitsPerPixel / 8 + y * lineBytes).toNat

/-! ### Splitting a transfer (R152) -/

/-- A wanted length of a sub-transfer, brought to between 1 and `max`. -/
def clampLen (max n : Nat) : Nat := Nat.max 1 (Nat.min n max)

/-- The sub-transfers of the wanted lengths `cuts`, then of length `max`; `fuel` bounds their number. -/
def splitBy (max : Nat) : Nat → List Nat → List Byte → List (List Byte)
  | 0, _, _ => []
  | _ + 1, _, [] => []
  | fuel + 1, cuts, b :: bytes =>
    (b :: bytes).take (clampLen max (cuts.headD max)) ::
      splitBy max fuel cuts.tail ((b :: bytes).drop (clampLen max (cuts.headD max)))

/-- `chunks(bytes)`: a transfer that does not exceed `max` is not split; a longer one is split in order into non-empty
parts of at most `max` bytes, of which the source fixes no lengths: `cuts` are the lengths wanted, and with none left the
split is the greedy one of R152. -/
def chunks (max : Nat) (cuts : List Nat) (bytes : List Byte) : List (List Byte) :=
  if bytes.length ≤ max then (if bytes.isEmpty then [] else [bytes])
  else splitBy max bytes.length cuts bytes

end Sys2Proof.Machine
end

