-- ==== Sys2Proof/Machine/Flags.lean ====
section
/-! DEFINITION. The host's view of the state: the fields of STATUS and the other registers, and what a read at an offset
returns (spec/10_state.md R23 to R27); the electrical level of the DC output (R29). -/

namespace Sys2Proof.Machine

/-- A bit as the number 0 or 1. -/
def bitOf (b : Bool) : BitVec 1 := if b then 1#1 else 0#1

/-- The 2-bit number of a lifecycle state (R23). -/
def PState.code : PState → BitVec 2
  | .uninitialized => 0#2
  | .ready => 1#2
  | .sleeping => 2#2

/-- The number of an error (R200). -/
def Err.code : Err → BitVec 4
  | .noError => 0#4
  | .illegalCommand => 1#4
  | .stateError => 2#4
  | .sizeMismatch => 3#4
  | .unsupported => 4#4
  | .busError => 5#4
  | .timeout => 6#4
  | .lineFault => 7#4
  | .rangeError => 8#4

/-- STATUS: RUN in bit 0, PSTATE in 2:1, ERR in 7:4, the rest 0 (R23). -/
def State.statusReg (s : State) : Word :=
  (0#24 : BitVec 24) ++ (s.err.code ++ ((0#1 : BitVec 1) ++ (s.pstate.code ++ bitOf s.run)))

/-- BG: the code in bits 1:0, the rest 0 (R26). -/
def State.bgReg (s : State) : Word := s.bg.code.setWidth 32

/-- CONFIG: SHIFT_DIR, BUSY_IS_LOW, DC_CMD_LEVEL and whether there is a timeout, in bits 0 to 3 (R27). -/
def State.configReg (s : State) : Word :=
  (0#28 : BitVec 28) ++
    (bitOf s.build.waitTimeoutMs.isSome ++
      (bitOf s.build.dcCmdLevel ++ (bitOf s.build.busyIsLow ++ bitOf (decide (s.build.shiftDir = .right)))))

/-- What a host read at offset `off` returns (R24): CMD and unmapped offsets read 0. -/
def State.hostRegRead (s : State) (off : Nat) : Word :=
  match off with
  | 0x00 => 0#32
  | 0x04 => s.statusReg
  | 0x08 => s.result
  | 0x0C => s.bgReg
  | 0x10 => s.configReg
  | _ => 0#32

/-- The electrical level of the DC output: DC_CMD_LEVEL in mode Command, its complement in mode Data (R29). -/
def State.dcLevel (s : State) : Bool :=
  match s.dc with
  | .command => s.build.dcCmdLevel
  | .data => !s.build.dcCmdLevel

end Sys2Proof.Machine
end

