-- ==== Sys2Proof/Machine/ColorModel.lean ====
section
/-! DEFINITION. The ColorModel family (spec/40_color_model.md R117 to R119). Each operation takes one step: it is
accepted and ends in it (R58). -/

namespace Sys2Proof.Machine

/-- BITMASK color, pos (R117): `RESULT <- (mask << 8) | bits`. -/
def execBitmask (c : Color) (pos : Nat) (s : State) : Host.Outcome State Fault Refusal :=
  .next (s.setResult ((0#16 : BitVec 16) ++
    (bitmaskMask s.build.shiftDir pos ++ bitmaskBits s.build.shiftDir c.code pos))).succeed

/-- DECODE code (R118): the colour of the code, held in RESULT by its code. -/
def execDecode (code : BitVec 2) (s : State) : Host.Outcome State Fault Refusal :=
  .next (s.setResult ((Color.ofCode code).code.setWidth 32)).succeed

/-- DEFBYTE (R119). -/
def execDefbyte (s : State) : Host.Outcome State Fault Refusal :=
  .next (s.setResult (defaultByte.setWidth 32)).succeed

end Sys2Proof.Machine
end

