-- ==== Sys2Proof/Machine/FrameBuffer.lean ====
section
/-! DEFINITION. The FrameBuffer family (spec/41_framebuffer.md R132 to R135). Each operation takes one step (R58). -/

namespace Sys2Proof.Machine

/-- FBINIT (R132): every frame byte becomes the default byte, which is what an unlisted address reads as. -/
def execFbinit (s : State) : Host.Outcome State Fault Refusal := .next (s.setFb []).succeed

/-- SETPX x, y, color (R133): a read-modify-write of one byte, or nothing if the pixel is out of range. -/
def execSetpx (x y : Int) (c : Color) (s : State) : Host.Outcome State Fault Refusal :=
  .next (
    if inRange x y then
      (s.setFb (s.fb.write (byteIndex x y)
        (applyField s.build.shiftDir (s.fb.read (byteIndex x y)) c.code x.toNat))).succeed
    else s.succeed)

/-- GETPX x, y (R134). -/
def execGetpx (x y : Int) (s : State) : Host.Outcome State Fault Refusal :=
  .next (
    if inRange x y then
      (s.setResult ((extractField s.build.shiftDir (s.fb.read (byteIndex x y)) x.toNat).setWidth 32)).succeed
    else s.raise .rangeError)

/-- FBRD addr (R135). -/
def execFbrd (addr : Nat) (s : State) : Host.Outcome State Fault Refusal :=
  .next (
    if addr < fbLen then (s.setResult ((s.fb.read addr).setWidth 32)).succeed
    else s.raise .rangeError)

end Sys2Proof.Machine
end

