-- ==== Sys2Proof/Machine/Trace.lean ====
section
/-! DEFINITION. Reading the panel trace (spec/00_scope.md R10): the stream of tagged bytes it sends the panel, and the
event a micro-step emits when nothing goes wrong. -/

namespace Sys2Proof.Machine

/-- The mode of the latest SetDC of a trace, `m` if it has none. -/
def modeAfter (m : Option DcMode) : List Event → Option DcMode
  | [] => m
  | .setDC m' :: t => modeAfter (some m') t
  | .setRst _ :: t => modeAfter m t
  | .delay _ :: t => modeAfter m t
  | .write _ :: t => modeAfter m t
  | .writeFail _ :: t => modeAfter m t
  | .idle :: t => modeAfter m t
  | .timedOut :: t => modeAfter m t

/-- `stream` of a trace read on from mode `m`. -/
def streamFrom (m : Option DcMode) : List Event → List (Option DcMode × Byte)
  | [] => []
  | .setDC m' :: t => streamFrom (some m') t
  | .write bytes :: t => bytes.map (fun b => (m, b)) ++ streamFrom m t
  | .setRst _ :: t => streamFrom m t
  | .delay _ :: t => streamFrom m t
  | .writeFail _ :: t => streamFrom m t
  | .idle :: t => streamFrom m t
  | .timedOut :: t => streamFrom m t

/-- `stream(trace)`: for each Write, the mode of the latest SetDC before it with each byte in order (R10); `none` where
no SetDC stands before it. -/
def stream (t : List Event) : List (Option DcMode × Byte) := streamFrom none t

/-- Whether a transfer of the trace failed. -/
def hasWriteFail (t : List Event) : Bool :=
  t.any (fun e => match e with
    | .writeFail _ => true
    | .setRst _ => false
    | .delay _ => false
    | .setDC _ => false
    | .write _ => false
    | .idle => false
    | .timedOut => false)

/-- The event a micro-step emits when its transfer succeeds or its wait finds the panel ready (R155 to R159). -/
def MicroStep.event : MicroStep → Event
  | .setDC m => .setDC m
  | .setRst l => .setRst l
  | .delay ms => .delay ms
  | .busWrite bytes => .write bytes
  | .waitIdle => .idle

end Sys2Proof.Machine
end

