-- ==== Sys2Proof/Machine/PanelLink.lean ====
section
/-! DEFINITION. PanelLink (spec/42_panel_link.md): the six primitives as lists of micro-steps, and the effect of each
elementary micro-step. -/

namespace Sys2Proof.Machine

/-! ### The primitives (R150 to R157) -/

/-- `send_command(opcode)` (R150). -/
def sendCommand (opcode : Byte) : List MicroStep := [.setDC .command, .busWrite [opcode]]

/-- `send_data(bytes)` (R151). -/
def sendData (max : Nat) (cuts : List Nat) (bytes : List Byte) : List MicroStep :=
  .setDC .data :: (chunks max cuts bytes).map .busWrite

/-- `send_command_with_data(opcode, bytes)` (R153). -/
def sendCommandWithData (max : Nat) (cuts : List Nat) (opcode : Byte) (bytes : List Byte) : List MicroStep :=
  sendCommand opcode ++ sendData max cuts bytes

/-- `send_repeated(byte, count)` (R154). -/
def sendRepeated (max : Nat) (cuts : List Nat) (byte : Byte) (count : Nat) : List MicroStep :=
  sendData max cuts (List.replicate count byte)

/-- `reset(initial_delay, hold_duration)` (R157). -/
def resetPulse (initialDelay hold : Nat) : List MicroStep :=
  [.setRst true, .delay initialDelay, .setRst false, .delay hold, .setRst true, .delay rstSettleMs]

/-! ### The micro-steps (R155, R156, R158, R159) -/

/-- `BusWrite(bytes)` (R155): the transport succeeds, or fails after some of the bytes and the operation is aborted
with BusError (R206). -/
def State.busWrite (bytes : List Byte) (s : State) : State :=
  if s.input.xferOk then (s.receive bytes).emit (.write bytes)
  else ((s.receive (bytes.take s.input.delivered)).emit (.writeFail bytes)).raise .busError

/-- `SetDC(m)` (R158). -/
def State.driveDc (m : DcMode) (s : State) : State := (s.setDc m).emit (.setDC m)

/-- `SetRst(l)` (R158). -/
def State.driveRst (l : Bool) (s : State) : State := (s.setRst l).emit (.setRst l)

/-- `Delay(n)` (R159). -/
def State.waitMs (ms : Nat) (s : State) : State := s.emit (.delay ms)

/-- `wait_idle` (R156), REM still holding it: at the ready level it returns; else, in a build with a timeout, it may
give up (R207); else PSQ has no step and nothing of the block changes. -/
def State.awaitIdle (s : State) : State :=
  if s.input.busy = readyLevel s.build then (s.popRem.emit .idle).settle
  else if s.build.waitTimeoutMs.isSome && s.input.timeout then (s.emit .timedOut).raise .timeout
  else s

end Sys2Proof.Machine
end

