-- ==== Sys2Proof/Machine/PanelDriver.lean ====
section
/-! DEFINITION. The PanelDriver family (spec/43_panel_driver.md R170 to R181): the micro-step list of each operation and
what acceptance of the operation does. The list is performed by PSQ (Machine/Sequencer.lean). -/

namespace Sys2Proof.Machine

/-! ### Micro-step lists -/

/-- The pairs of INIT_SEQ in list order, each a command with its data (R172, R234). -/
def initPairs (max : Nat) : List (List Nat) → List (Byte × List Byte) → List MicroStep
  | _, [] => []
  | cuts, (opcode, payload) :: rest =>
    sendCommandWithData max (cuts.headD []) opcode payload ++ initPairs max cuts.tail rest

/-- The list of INIT and of WAKE (R172, R173). -/
def initSteps (b : Build) (cuts : List (List Nat)) : List MicroStep :=
  resetPulse b.rstInitialDelayMs b.rstHoldMs ++ [.waitIdle] ++ initPairs b.maxChunk cuts b.initSeq.pairs ++
    sendCommand opPowerOn ++ [.waitIdle]

/-- The list of SLEEP (R174). -/
def sleepSteps : List MicroStep :=
  [.waitIdle] ++ sendCommand opPowerOff ++ [.waitIdle] ++ sendCommand opDeepSleep

/-- The list of UPDATE for the frame `bytes` (R175). -/
def updateSteps (b : Build) (cuts : List (List Nat)) (bytes : List Byte) : List MicroStep :=
  [.waitIdle] ++ sendCommandWithData b.maxChunk (cuts.headD []) opDataStart bytes

/-- The list of DISPLAY (R176). -/
def displaySteps : List MicroStep := sendCommand opDisplayRefresh ++ [.waitIdle]

/-- The list of UPDDISP (R177). -/
def upddispSteps (b : Build) (cuts : List (List Nat)) (bytes : List Byte) : List MicroStep :=
  updateSteps b cuts bytes ++ sendCommand opPowerOn ++ displaySteps

/-- The list of CLEAR with background `bg` (R178). -/
def clearSteps (b : Build) (cuts : List (List Nat)) (bg : Color) : List MicroStep :=
  [.waitIdle] ++ sendCommand opDataStart ++
    sendRepeated b.maxChunk (cuts.headD []) (repByte bg.code) clearCount ++ sendCommand opDataStop ++
    sendCommand opDisplayRefresh ++ [.waitIdle]

/-! ### Acceptance -/

/-- INIT and WAKE are accepted in any lifecycle state, make it Uninitialized, and end Ready (R172, R173). -/
def State.launchInit (s : State) : State :=
  (s.setPstate .uninitialized).launch (initSteps s.build s.input.cuts) .ready

/-- The lifecycle check of SLEEP, UPDATE, DISPLAY, UPDDISP and CLEAR (R202). -/
def State.ifReady (s : State) (go : State) : State := if s.pstate = .ready then go else s.raise .stateError

/-- The length check of UPDATE and UPDDISP (R203). -/
def State.ifFrameLen (s : State) (len : Nat) (go : State) : State :=
  if len = fbLen then go else s.raise .sizeMismatch

/-- INIT (R172). -/
def execInit (s : State) : Host.Outcome State Fault Refusal := .next s.launchInit

/-- WAKE (R173): the steps of INIT. -/
def execWake (s : State) : Host.Outcome State Fault Refusal := .next s.launchInit

/-- SLEEP (R174). -/
def execSleep (s : State) : Host.Outcome State Fault Refusal :=
  .next (s.ifReady (s.launch sleepSteps .sleeping))

/-- UPDATE len (R175): the state check, then the length check (R212). -/
def execUpdate (len : Nat) (s : State) : Host.Outcome State Fault Refusal :=
  .next (s.ifReady (s.ifFrameLen len (s.launch (updateSteps s.build s.input.cuts s.fb.raw) .ready)))

/-- DISPLAY (R176). -/
def execDisplay (s : State) : Host.Outcome State Fault Refusal :=
  .next (s.ifReady (s.launch displaySteps .ready))

/-- UPDDISP len (R177). -/
def execUpddisp (len : Nat) (s : State) : Host.Outcome State Fault Refusal :=
  .next (s.ifReady (s.ifFrameLen len (s.launch (upddispSteps s.build s.input.cuts s.fb.raw) .ready)))

/-- CLEAR (R178). -/
def execClear (s : State) : Host.Outcome State Fault Refusal :=
  .next (s.ifReady (s.launch (clearSteps s.build s.input.cuts s.bg) .ready))

/-- GETBG (R179). -/
def execGetbg (s : State) : Host.Outcome State Fault Refusal := .next (s.setResult (s.bg.code.setWidth 32)).succeed

/-- SETBG color (R180). -/
def execSetbg (c : Color) (s : State) : Host.Outcome State Fault Refusal := .next (s.setBg c).succeed

/-- SETLUT imm8 (R181): always Unsupported, whatever `imm8` (R204). -/
def execSetlut (_imm8 : Nat) (s : State) : Host.Outcome State Fault Refusal := .next (s.raise .unsupported)

end Sys2Proof.Machine
end

