-- ==== Sys2Proof/Machine/PanelOpcodes.lean ====
section
/-! DEFINITION. The panel opcode bytes (spec/30_encoding.md R95): each is the BusWrite micro-step of one opcode byte,
which PSQ performs in command mode (spec/42_panel_link.md R150, R155). REM is what remains after the micro-step. -/

namespace Sys2Proof.Machine

/-- The transfer of one opcode byte, after which the operation ends if REM is empty (R155, R170). -/
def sendOpcode (opcode : Byte) (s : State) : Host.Outcome State Fault Refusal :=
  .next (s.busWrite [opcode]).settle

/-- Panel setting (R95). -/
def execPPanelSetting (s : State) : Host.Outcome State Fault Refusal := sendOpcode opPanelSetting s

/-- Power setting (R95). -/
def execPPowerSetting (s : State) : Host.Outcome State Fault Refusal := sendOpcode opPowerSetting s

/-- Power off (R95). -/
def execPPowerOff (s : State) : Host.Outcome State Fault Refusal := sendOpcode opPowerOff s

/-- Power on (R95). -/
def execPPowerOn (s : State) : Host.Outcome State Fault Refusal := sendOpcode opPowerOn s

/-- Booster soft-start (R95). -/
def execPBoosterSoftStart (s : State) : Host.Outcome State Fault Refusal := sendOpcode opBoosterSoftStart s

/-- Deep sleep (R95). -/
def execPDeepSleep (s : State) : Host.Outcome State Fault Refusal := sendOpcode opDeepSleep s

/-- Start data transmission (R95). -/
def execPDataStart (s : State) : Host.Outcome State Fault Refusal := sendOpcode opDataStart s

/-- Data stop (R95). -/
def execPDataStop (s : State) : Host.Outcome State Fault Refusal := sendOpcode opDataStop s

/-- Display refresh (R95). -/
def execPDisplayRefresh (s : State) : Host.Outcome State Fault Refusal := sendOpcode opDisplayRefresh s

/-- PLL control (R95). -/
def execPPllControl (s : State) : Host.Outcome State Fault Refusal := sendOpcode opPllControl s

/-- VCOM/data-interval (R95). -/
def execPVcomDataInterval (s : State) : Host.Outcome State Fault Refusal := sendOpcode opVcomDataInterval s

/-- SPI-flash control (R95). -/
def execPSpiFlashControl (s : State) : Host.Outcome State Fault Refusal := sendOpcode opSpiFlashControl s

/-- Power-saving (R95). -/
def execPPowerSaving (s : State) : Host.Outcome State Fault Refusal := sendOpcode opPowerSaving s

/-- The fixed vendor opcode 0x4D (R95). -/
def execPVendor4D (s : State) : Host.Outcome State Fault Refusal := sendOpcode opVendor4D s

/-- The fixed vendor opcode 0xE9 (R95). -/
def execPVendorE9 (s : State) : Host.Outcome State Fault Refusal := sendOpcode opVendorE9 s

end Sys2Proof.Machine
end

