-- ==== Sys2Proof/Machine/Dispatch.lean ====
section
/-! DEFINITION. One arm per instruction, each one call of its meaning. -/

namespace Sys2Proof.Machine

def exec (i : Instr) (s : State) : Host.Outcome State Fault Refusal :=
  match i with
  | .bitmask c pos => Sys2Proof.Machine.execBitmask c pos s
  | .decode code => Sys2Proof.Machine.execDecode code s
  | .defbyte => Sys2Proof.Machine.execDefbyte s
  | .fbinit => Sys2Proof.Machine.execFbinit s
  | .setpx x y c => Sys2Proof.Machine.execSetpx x y c s
  | .getpx x y => Sys2Proof.Machine.execGetpx x y s
  | .fbrd addr => Sys2Proof.Machine.execFbrd addr s
  | .init => Sys2Proof.Machine.execInit s
  | .wake => Sys2Proof.Machine.execWake s
  | .sleep => Sys2Proof.Machine.execSleep s
  | .update len => Sys2Proof.Machine.execUpdate len s
  | .display => Sys2Proof.Machine.execDisplay s
  | .upddisp len => Sys2Proof.Machine.execUpddisp len s
  | .clear => Sys2Proof.Machine.execClear s
  | .getbg => Sys2Proof.Machine.execGetbg s
  | .setbg c => Sys2Proof.Machine.execSetbg c s
  | .setlut imm8 => Sys2Proof.Machine.execSetlut imm8 s
  | .pPanelSetting => Sys2Proof.Machine.execPPanelSetting s
  | .pPowerSetting => Sys2Proof.Machine.execPPowerSetting s
  | .pPowerOff => Sys2Proof.Machine.execPPowerOff s
  | .pPowerOn => Sys2Proof.Machine.execPPowerOn s
  | .pBoosterSoftStart => Sys2Proof.Machine.execPBoosterSoftStart s
  | .pDeepSleep => Sys2Proof.Machine.execPDeepSleep s
  | .pDataStart => Sys2Proof.Machine.execPDataStart s
  | .pDataStop => Sys2Proof.Machine.execPDataStop s
  | .pDisplayRefresh => Sys2Proof.Machine.execPDisplayRefresh s
  | .pPllControl => Sys2Proof.Machine.execPPllControl s
  | .pVcomDataInterval => Sys2Proof.Machine.execPVcomDataInterval s
  | .pSpiFlashControl => Sys2Proof.Machine.execPSpiFlashControl s
  | .pPowerSaving => Sys2Proof.Machine.execPPowerSaving s
  | .pVendor4D => Sys2Proof.Machine.execPVendor4D s
  | .pVendorE9 => Sys2Proof.Machine.execPVendorE9 s

end Sys2Proof.Machine
end

