-- ==== Sys2Proof/Machine/HostPort.lean ====
section
/-! DEFINITION. The host port (spec/20_memory.md R54, R57, R58; spec/10_state.md R24): what one access of the host
does. -/

namespace Sys2Proof.Machine

/-- Why an access is outside the spec, if it is: it must be 32 bits wide and at a multiple of 4 (R54, U14). -/
def accessRefusal (off width : Nat) : Option Refusal :=
  if width ≠ 4 then some .hostAccessNot32Bit
  else if off % 4 ≠ 0 then some .hostAccessUnaligned
  else none

/-- Whether the access is a write of CMD, which is held while RUN = 1 (R58). -/
def HostAct.isCommand : HostAct → Bool
  | .read _ _ _ => false
  | .write _ off width _ => decide (off = 0) && decide (width = 4)
  | .blockReset => false

/-- The host agent that makes the access; the platform's block reset is no agent's (R245). -/
def HostAct.agent : HostAct → Option Nat
  | .read who _ _ => some who
  | .write who _ _ _ => some who
  | .blockReset => none

/-- A command word is accepted (R58): it is decoded and its operation starts, or it is illegal (R85, R201). -/
def acceptWord (cw : Word) (s : State) : Host.Outcome State Fault Refusal :=
  match decodeHost cw with
  | .instr i => exec i s
  | .reject _ => .next (s.raise .illegalCommand)

/-- The host makes one access. A read returns the register and changes nothing of the block (R57); a write to CMD is a
command; a write to any other offset is ignored (R24, R57); the platform may apply block reset (R230). -/
def hostStep (a : HostAct) (s : State) : Host.Outcome State Fault Refusal :=
  match a with
  | .read who off width =>
    match accessRefusal off width with
    | some r => .refused r
    | none => .next { s with reads := s.reads ++ [(who, off, s.hostRegRead off)] }
  | .write _ off width w =>
    match accessRefusal off width with
    | some r => .refused r
    | none => if off = 0 then acceptWord w s else .next s
  | .blockReset => .next s.blockReset

end Sys2Proof.Machine
end

