-- ==== Sys2Proof/Machine/Sequencer.lean ====
section
/-! DEFINITION. PSQ's step (spec/10_state.md R22, spec/43_panel_driver.md R170) and the choice of the agent that moves
(spec/00_scope.md R11, spec/20_memory.md R58). -/

namespace Sys2Proof.Machine

/-- The transfer of a command-mode BusWrite: exactly one byte, an opcode of R95 (R97). -/
def opcodeOf (bytes : List Byte) : Decoded :=
  match bytes with
  | [b] => decodePanel b
  | [] => .reject .notPanelOpcode
  | _ :: _ :: _ => .reject .notPanelOpcode

/-- A BusWrite at the head of REM, which is already taken off: in command mode the byte is a panel opcode and runs as
one; in data mode any bytes are sent (R97). -/
def transferStep (bytes : List Byte) (s : State) : Host.Outcome State Fault Refusal :=
  match s.dc with
  | .command =>
    match opcodeOf bytes with
    | .instr i => exec i s
    | .reject _ => .fault .notPanelOpcode
  | .data => .next (s.busWrite bytes).settle

/-- PSQ performs the head of REM (R170). With REM empty the operation has ended. -/
def psqStep (s : State) : Host.Outcome State Fault Refusal :=
  match s.rem with
  | [] => .next s.finish
  | .setDC m :: _ => .next (s.popRem.driveDc m).settle
  | .setRst l :: _ => .next (s.popRem.driveRst l).settle
  | .delay ms :: _ => .next (s.popRem.waitMs ms).settle
  | .busWrite bytes :: _ => transferStep bytes s.popRem
  | .waitIdle :: _ => .next s.awaitIdle

/-- Whether an access has to wait while an operation runs, `held` being the agents whose CMD write is held: it is a CMD
write, or an access of such an agent, which has no step until its write is accepted (R58). -/
def HostAct.waits (held : List Nat) (a : HostAct) : Bool :=
  a.isCommand || (match a.agent with
    | some n => held.contains n
    | none => false)

/-- The first access of a list that does not have to wait, and the list without it; an access that waits makes its agent
one of `held`. -/
def firstUnheld : List Nat → List HostAct → Option (HostAct × List HostAct)
  | _, [] => none
  | held, a :: rest =>
    if a.waits held then (firstUnheld (a.agent.toList ++ held) rest).map (fun p => (p.1, a :: p.2)) else some (a, rest)

/-- The access the host's side can make next, and the accesses that then remain. While an operation runs a CMD write is
held and its agent has no step; a read of any other agent is not held, and block reset may come at any time (R58, R236,
R245). -/
def State.hostMove (s : State) : Option (HostAct × List HostAct) :=
  if s.run then firstUnheld [] s.host
  else match s.host with
    | [] => none
    | a :: rest => some (a, rest)

/-- One agent moves (R11). When an operation runs and the host's side can move too, a free input says which. With no host
access to come and no operation running nothing changes. -/
def agentStep (s : State) : Host.Outcome State Fault Refusal :=
  match s.hostMove with
  | none => if s.run then psqStep s else .next s
  | some (a, rest) => if s.run && !s.input.hostFirst then psqStep s else hostStep a { s with host := rest }

end Sys2Proof.Machine
end

