-- ==== Sys2Proof/Machine/Step.lean ====
section
/-! DEFINITION. One step: one agent moves, then the environment's draw of the step is used up; and how a table row's bits
are put where the machine takes its next instruction. -/

namespace Sys2Proof.Machine

/-- One step of the whole machine. -/
def step (s : State) : Host.Outcome State Fault Refusal := mapNext State.advance (agentStep s)

/-- `s` with the instruction of the bits `w` placed where the next step takes it. A host command word comes from the
host: it is the host's next access, and no operation is running, so that it is accepted (R58). A panel opcode byte comes
from PSQ: it is the transfer at the head of REM of a running operation, in command mode, with no host access before it
(R22, R95). -/
def State.withFetchWord (s : State) (nbits w : Nat) : State :=
  if nbits = 8 then
    { s with run := true, dc := .command, host := [], rem := .busWrite [BitVec.ofNat 8 w] :: s.rem }
  else
    { s with run := false, rem := [], host := .write 0 0 4 (BitVec.ofNat 32 w) :: s.host }

end Sys2Proof.Machine
end

