-- ==== Sys2Proof/Safety.lean ====
section
/-! DEFINITION. What every state the block can be in looks like, and what a safe step is. -/

namespace Sys2Proof.Safety

open Sys2Proof.Machine

/-- Whether a transfer is exactly one opcode byte of R95. -/
def isOpcodeTransfer (bytes : List Byte) : Bool :=
  match opcodeOf bytes with
  | .instr _ => true
  | .reject _ => false

/-- Whether every transfer of a micro-step list, read on from DC mode `m` (none: no SetDC yet), is non-empty, has at
most `max` bytes (R155), stands after a SetDC (R150, R151), and in command mode is one opcode byte (R97). -/
def writesOk (max : Nat) (m : Option DcMode) : List MicroStep → Bool
  | [] => true
  | .setDC m' :: t => writesOk max (some m') t
  | .setRst _ :: t => writesOk max m t
  | .delay _ :: t => writesOk max m t
  | .waitIdle :: t => writesOk max m t
  | .busWrite bytes :: t =>
    !bytes.isEmpty && decide (bytes.length ≤ max) &&
    (match m with
      | none => false
      | some .data => true
      | some .command => isOpcodeTransfer bytes) &&
    writesOk max m t

/-- The invariant of the machine: the frame memory is canonical (R28); LineFault is never held (R208); REM is empty when
no operation runs (R30); a running operation has steps left and no error yet (R22, R58), and its lifecycle states are
those of R215; its transfers are as PanelLink makes them. -/
def BlockInv (s : State) : Prop :=
  s.fb.wf = true ∧
  s.err ≠ .lineFault ∧
  (s.run = false → s.rem = []) ∧
  (s.run = true → s.rem ≠ [] ∧ s.err = .noError) ∧
  (s.run = true → (s.pstate = .uninitialized ∧ s.onEnd = .ready) ∨
    (s.pstate = .ready ∧ (s.onEnd = .ready ∨ s.onEnd = .sleeping))) ∧
  writesOk s.build.maxChunk (some s.dc) s.rem = true

/-- What ties the trace to the bytes the panel received (R10, R155): the latch is the latest SetDC of the trace, unless
REM drives it before its next transfer; and as long as no transfer has failed, the stream of the trace is what was
received. -/
def TraceInv (s : State) : Prop :=
  (modeAfter none s.trace = some s.dc ∨ writesOk s.build.maxChunk none s.rem = true) ∧
  (hasWriteFail s.trace = false → stream s.trace = s.rx.map (fun p => (some p.1, p.2)))

/-- Every byte the panel received in command mode is a panel opcode (R97). -/
def CommandBytesOk (s : State) : Prop :=
  ∀ p ∈ s.rx, p.1 = DcMode.command → isOpcodeTransfer [p.2] = true

/-- PSQ moves in the next step: an operation runs and no host access goes before it (R11, R58). -/
def PsqMoves (s : State) : Prop := s.run = true ∧ (s.hostMove = none ∨ s.input.hostFirst = false)

/-- The host's side moves in the next step, with access `a`, and then the accesses `r` remain (R11, R58). -/
def HostMoves (s : State) (a : HostAct) (r : List HostAct) : Prop :=
  s.hostMove = some (a, r) ∧ (s.run = false ∨ s.input.hostFirst = true)

/-- The number a colour code 1 in the field at position `pos mod 4` adds to the byte (the table of R112). -/
def fieldWeight (d : ShiftDir) (pos : Nat) : Nat :=
  match d with
  | .left => 4 ^ (pos % 4)
  | .right => 4 ^ (3 - pos % 4)

/-- `ks` is a split of `bytes` that R152 allows: in order, no gap, non-empty parts of at most `max` bytes, and no split
at all of a transfer that does not exceed `max`. -/
def Splits (max : Nat) (bytes : List Byte) (ks : List (List Byte)) : Prop :=
  ks.flatten = bytes ∧ (∀ k ∈ ks, k ≠ [] ∧ k.length ≤ max) ∧ (bytes.length ≤ max → ks.length ≤ 1)

/-- The mnemonic of a host operation in the table of R84; a panel opcode is no row of it. -/
def hostMnemonic : Instr → Option String
  | .bitmask _ _ => some "BITMASK"
  | .decode _ => some "DECODE"
  | .defbyte => some "DEFBYTE"
  | .fbinit => some "FBINIT"
  | .setpx _ _ _ => some "SETPX"
  | .getpx _ _ => some "GETPX"
  | .fbrd _ => some "FBRD"
  | .init => some "INIT"
  | .wake => some "WAKE"
  | .sleep => some "SLEEP"
  | .update _ => some "UPDATE"
  | .display => some "DISPLAY"
  | .upddisp _ => some "UPDDISP"
  | .clear => some "CLEAR"
  | .getbg => some "GETBG"
  | .setbg _ => some "SETBG"
  | .setlut _ => some "SETLUT"
  | .pPanelSetting => none
  | .pPowerSetting => none
  | .pPowerOff => none
  | .pPowerOn => none
  | .pBoosterSoftStart => none
  | .pDeepSleep => none
  | .pDataStart => none
  | .pDataStop => none
  | .pDisplayRefresh => none
  | .pPllControl => none
  | .pVcomDataInterval => none
  | .pSpiFlashControl => none
  | .pPowerSaving => none
  | .pVendor4D => none
  | .pVendorE9 => none

/-- The numbers of R84's `op` column. -/
def assignedOps : List Nat :=
  [0x01, 0x02, 0x03, 0x08, 0x09, 0x0A, 0x0B, 0x10, 0x11, 0x12, 0x13, 0x14, 0x15, 0x16, 0x17, 0x18, 0x19]

/-- The cases (a) to (d) of R85, on the bits of the word as a number: `bits cw hi lo` is `cw[hi:lo]`. -/
def bits (cw : Word) (hi lo : Nat) : Nat := cw.toNat / 2 ^ lo % 2 ^ (hi + 1 - lo)

/-- A command word is illegal (R85): its `op` is not assigned, a bit its format marks "zero" is 1, GETPX has a colour,
or DECODE or SETBG has a `pos`. -/
def IllegalWord (cw : Word) : Prop :=
  bits cw 31 26 ∉ assignedOps ∨
  (bits cw 31 26 ∈ [0x03, 0x08, 0x10, 0x11, 0x12, 0x14, 0x16, 0x17] ∧ bits cw 25 0 ≠ 0) ∨
  (bits cw 31 26 ∈ [0x01, 0x02, 0x18] ∧ bits cw 23 12 ≠ 0) ∨
  (bits cw 31 26 = 0x0B ∧ bits cw 25 17 ≠ 0) ∨
  (bits cw 31 26 ∈ [0x13, 0x15] ∧ bits cw 25 20 ≠ 0) ∨
  (bits cw 31 26 = 0x19 ∧ bits cw 25 8 ≠ 0) ∨
  (bits cw 31 26 = 0x0A ∧ bits cw 25 24 ≠ 0) ∨
  (bits cw 31 26 ∈ [0x02, 0x18] ∧ bits cw 11 0 ≠ 0)

/-- The host operations that return a value (R25). -/
def returnsValue : Instr → Bool
  | .bitmask _ _ => true
  | .decode _ => true
  | .defbyte => true
  | .getpx _ _ => true
  | .fbrd _ => true
  | .getbg => true
  | _ => false

/-- The next access of the host is the command word of instruction `i`, and it is accepted in the next step (R58). -/
def Accepts (s : State) (i : Instr) : Prop :=
  s.run = false ∧ ∃ n w r, s.host = .write n 0 4 w :: r ∧ decodeHost w = .instr i

/-- The platform applies block reset in the next step (R230). -/
def Resets (s : State) : Prop := ∃ r, HostMoves s .blockReset r

/-- The micro-step at the head of REM is `m`, and PSQ moves. -/
def Performs (s : State) (m : MicroStep) : Prop := PsqMoves s ∧ ∃ r, s.rem = m :: r

/-- The panel opcode instruction of each byte of R95. -/
def panelTable : List (Byte × Instr) :=
  [(0x00#8, .pPanelSetting), (0x01#8, .pPowerSetting), (0x02#8, .pPowerOff), (0x04#8, .pPowerOn),
   (0x06#8, .pBoosterSoftStart), (0x07#8, .pDeepSleep), (0x10#8, .pDataStart), (0x11#8, .pDataStop)] ++
  [(0x12#8, .pDisplayRefresh), (0x30#8, .pPllControl), (0x50#8, .pVcomDataInterval), (0x65#8, .pSpiFlashControl),
   (0xE3#8, .pPowerSaving), (0x4D#8, .pVendor4D), (0xE9#8, .pVendorE9)]

/-- The micro-steps of the pairs of an initialization table, each payload split as its entry of `ks` says (R153,
R172). -/
def pairSteps : List (Byte × List Byte) → List (List (List Byte)) → List MicroStep
  | [], _ => []
  | (o, _) :: ps, ks =>
    [.setDC .command, .busWrite [o], .setDC .data] ++ (ks.headD []).map .busWrite ++ pairSteps ps ks.tail

/-- A step is safe when it does not stop the machine with a fault. -/
def SafeStep (s : State) : Prop := ∀ r, step s ≠ .fault r

/-- A step's environment lets PSQ go on: the busy input is at the ready level and a transfer succeeds. -/
def Granted (b : Build) (e : EnvIn) : Bool := (e.busy == readyLevel b) && e.xferOk

end Sys2Proof.Safety
end

