-- ==== Sys2Proof/Certificates/Slice0/Obligations.lean ====
section
/-! DEFINITION. The statements for the provers. Each is one proposition about the model; its docstring names the rule of
the spec it comes from. -/

open Sys2Proof Sys2Proof.Machine Sys2Proof.Safety

/-! ### Encoding (spec/30_encoding.md) -/

/-- Decoding the encoding of any well-formed instruction, host operation or panel opcode, gives it back with every
operand (R80 to R82, R84, R95). -/
def Obligations.DecodeOfEncodeIsTheInstruction : Prop :=
  ∀ i : Instr, i.wf = true → decodeTableWord (encode i).1 (encode i).2 = some i

/-- A command word that decodes is the encoding of a well-formed instruction: no two words mean the same (R82, R84). -/
def Obligations.EncodeOfDecodeIsTheWord : Prop :=
  ∀ (cw : Word) (i : Instr), decodeHost cw = .instr i → i.wf = true ∧ encode i = (32, cw.toNat)

/-- R84: a word selects a row (`cw & mask = match`) iff it decodes to an operation of the row's mnemonic, and no word
selects two rows. -/
def Obligations.RowsOfTheOperationMapDecode : Prop :=
  hostRows.length = 17 ∧
  (∀ r ∈ hostRows, ∀ cw : Word,
    r.selects cw = true ↔ ∃ i, decodeHost cw = .instr i ∧ hostMnemonic i = some r.name) ∧
  (∀ r ∈ hostRows, ∀ r' ∈ hostRows, ∀ cw : Word, r.selects cw = true → r'.selects cw = true → r = r')

/-- R85, R201: the words of cases (a) to (d) are exactly those that select no row, and accepting one ends at once with
IllegalCommand and no other effect. -/
def Obligations.IllegalWordsEndWithIllegalCommand : Prop :=
  ∀ cw : Word,
    (IllegalWord cw ↔ ∀ r ∈ hostRows, r.selects cw = false) ∧
    ∀ (s : State) (n : Nat), IllegalWord cw → s.run = false → s.rem = [] →
      hostStep (.write n 0 4 cw) s = .next { s with err := .illegalCommand }

/-- R95: the fifteen panel opcode bytes and no others decode in command mode. -/
def Obligations.PanelOpcodeTableIsTheWholeTable : Prop :=
  panelTable.length = 15 ∧ ∀ (b : Byte) (i : Instr), decodePanel b = .instr i ↔ (b, i) ∈ panelTable

/-- Words written out from the spec's encodings decode to the instructions they stand for (spec/95_test_vectors.md). -/
def Obligations.WordsOfTheSpecDecode : Prop :=
  decodeHost 0x06000001#32 = .instr (.bitmask .red 1) ∧
  decodeHost 0x25FFD005#32 = .instr (.setpx 5 (-3) .white) ∧
  decodeHost 0x281DF31F#32 = .instr (.getpx 799 479) ∧
  decodeHost 0x2C0176FF#32 = .instr (.fbrd 95999) ∧
  decodeHost 0x4C017700#32 = .instr (.update 96000) ∧
  decodeHost 0x62000000#32 = .instr (.setbg .red) ∧
  decodeHost 0x640000FF#32 = .instr (.setlut 255) ∧
  decodePanel 0xE3#8 = .instr .pPowerSaving

/-! ### ColorModel (spec/40_color_model.md) -/

/-- R110, R111: the four codes, and `decode` the inverse of `code` both ways. -/
def Obligations.ColorCodesAreABijection : Prop :=
  Color.code .black = 0b00#2 ∧ Color.code .white = 0b01#2 ∧ Color.code .red = 0b10#2 ∧ Color.code .yellow = 0b11#2 ∧
  (∀ k : Color, Color.ofCode k.code = k) ∧ ∀ b : BitVec 2, (Color.ofCode b).code = b

/-- R112: the field at `p` has its two bits where SHIFT_DIR says, the four fields are disjoint and cover the byte, and
the two directions mirror each other. -/
def Obligations.FieldMasksTileTheByte : Prop :=
  (∀ d p, p < 4 → (fieldmask d p).toNat = 3 * fieldWeight d p) ∧
  (∀ d p q, p < 4 → q < 4 → p ≠ q → fieldmask d p &&& fieldmask d q = 0#8) ∧
  (∀ d, fieldmask d 0 ||| fieldmask d 1 ||| fieldmask d 2 ||| fieldmask d 3 = 0xFF#8) ∧
  ∀ p, p < 4 → fieldmask .right p = fieldmask .left (3 - p)

/-- R113: `mask` is all ones but for the field at `pos mod 4`, `bits` is the code times the field's weight, and no bit
of `bits` lies outside the field. -/
def Obligations.BitmaskClearsAndSetsOneField : Prop :=
  ∀ (d : ShiftDir) (c : BitVec 2) (pos : Nat),
    (bitmaskMask d pos).toNat = 255 - 3 * fieldWeight d pos ∧
    (bitmaskBits d c pos).toNat = c.toNat * fieldWeight d pos ∧
    bitmaskBits d c pos &&& bitmaskMask d pos = 0#8

/-- R114: `apply` is `(b & mask) | bits`; it leaves the other three fields, sets the one, and doing it twice is doing it
once. -/
def Obligations.ApplyChangesOnlyItsField : Prop :=
  ∀ (d : ShiftDir) (b : Byte) (c : BitVec 2) (pos : Nat),
    (∀ q, q < 4 → q ≠ pos % 4 → extractField d (applyField d b c pos) q = extractField d b q) ∧
    extractField d (applyField d b c pos) pos = c ∧
    applyField d b c pos = (b &&& bitmaskMask d pos) ||| bitmaskBits d c pos ∧
    applyField d (applyField d b c pos) c pos = applyField d b c pos

/-- R115: `extract` is the code at position `pos mod 4`, and a colour written is the colour read. -/
def Obligations.ExtractReadsTheFieldWritten : Prop :=
  ∀ (d : ShiftDir) (b : Byte) (pos : Nat),
    (extractField d b pos).toNat = b.toNat / fieldWeight d pos % 4 ∧
    ∀ k : Color, Color.ofCode (extractField d (applyField d b k.code pos) pos) = k

/-- R116: `rep(c)` is `c` times 0x55, every field of it reads `c` in either direction, and the default byte is 0x55. -/
def Obligations.RepFillsEveryField : Prop :=
  (∀ c : BitVec 2, (repByte c).toNat = c.toNat * 0x55) ∧
  (∀ (d : ShiftDir) (c : BitVec 2) (pos : Nat), extractField d (repByte c) pos = c) ∧
  defaultByte = 0x55#8

/-- BITMASK completes in every state, with mask and bits in RESULT and nothing else changed but RUN and ERR
(R117). -/
def Obligations.BitmaskReturnsMaskAndBits : Prop :=
  ∀ (c : Color) (pos : Nat) (s : State), ∃ t, exec (.bitmask c pos) s = .next t ∧
    t.result.toNat = 256 * (255 - 3 * fieldWeight s.build.shiftDir pos) +
      c.code.toNat * fieldWeight s.build.shiftDir pos ∧
    t = { s with run := false, err := .noError, result := t.result }

/-- DECODE and DEFBYTE complete in every state, with the code and with 0x55 in RESULT (R118, R119). -/
def Obligations.DecodeAndDefbyteReturnTheirValue : Prop :=
  (∀ (c : BitVec 2) (s : State), ∃ t, exec (.decode c) s = .next t ∧ t.result.toNat = c.toNat ∧
    t = { s with run := false, err := .noError, result := t.result }) ∧
  ∀ s : State, exec .defbyte s = .next { s with run := false, err := .noError, result := 0x55#32 }

/-! ### FrameBuffer (spec/41_framebuffer.md) -/

/-- R130, R131: a pixel is in range iff `0 <= x <= 799` and `0 <= y <= 479`, on signed integers; its address is then
`floor(x/4) + 200*y`, it lies in the frame, and distinct pixels have distinct fields. -/
def Obligations.PixelAddressesStayInFrameAndDiffer : Prop :=
  (∀ x y : Int, inRange x y = true ↔ 0 ≤ x ∧ x ≤ 799 ∧ 0 ≤ y ∧ y ≤ 479) ∧
  (∀ x y : Int, inRange x y = true →
    (byteIndex x y : Int) = x / 4 + 200 * y ∧ byteIndex x y ≤ 95999) ∧
  ∀ x y x' y' : Int, inRange x y = true → inRange x' y' = true →
    byteIndex x y = byteIndex x' y' → x % 4 = x' % 4 → x = x' ∧ y = y'

/-- FBINIT completes in every state; every frame byte is then 0x55 and every pixel White, and nothing else has changed
but RUN and ERR (R132). -/
def Obligations.FbinitFillsTheFrameWithWhite : Prop :=
  ∀ s : State, ∃ t, exec .fbinit s = .next t ∧ t.fb.wf = true ∧
    (∀ a, t.fb.read a = 0x55#8) ∧
    (∀ x y : Int, inRange x y = true →
      Color.ofCode (extractField s.build.shiftDir (t.fb.read (byteIndex x y)) x.toNat) = .white) ∧
    t = { s with run := false, err := .noError, fb := t.fb }

/-- SETPX on a pixel in range completes: the byte at the pixel's address has the field set, every other byte reads as
before, the frame stays canonical, and nothing else has changed but RUN and ERR (R133). -/
def Obligations.SetpxWritesOneField : Prop :=
  ∀ (x y : Int) (c : Color) (s : State), inRange x y = true → s.fb.wf = true →
    ∃ t, exec (.setpx x y c) s = .next t ∧ t.fb.wf = true ∧
      t.fb.read (byteIndex x y) = applyField s.build.shiftDir (s.fb.read (byteIndex x y)) c.code x.toNat ∧
      (∀ a, a ≠ byteIndex x y → t.fb.read a = s.fb.read a) ∧
      t = { s with run := false, err := .noError, fb := t.fb }

/-- SETPX out of range is a no-op that ends in success: `x` or `y` on any side of the frame (R133). -/
def Obligations.SetpxOutOfRangeIsANoOp : Prop :=
  ∀ (x y : Int) (c : Color) (s : State), (x < 0 ∨ 799 < x ∨ y < 0 ∨ 479 < y) →
    exec (.setpx x y c) s = .next { s with run := false, err := .noError }

/-- After SETPX in range, GETPX returns the colour written for that pixel, and for every other pixel what it returned
before (R133, R134, and property S5 of spec/95_test_vectors.md). -/
def Obligations.SetpxThenGetpxRoundTrip : Prop :=
  ∀ (x y x' y' : Int) (c : Color) (s t : State), s.fb.wf = true → inRange x y = true → inRange x' y' = true →
    exec (.setpx x y c) s = .next t →
    ∃ u v, exec (.getpx x' y') t = .next u ∧ exec (.getpx x' y') s = .next v ∧
      u.result = if x' = x ∧ y' = y then c.code.setWidth 32 else v.result

/-- GETPX in range completes with the pixel's code in RESULT; out of range it ends with RangeError and RESULT and the
frame unchanged (R134, R209). REM is empty at acceptance (R30). -/
def Obligations.GetpxReturnsTheCodeOrRangeError : Prop :=
  ∀ (x y : Int) (s : State),
    (inRange x y = true → ∃ t, exec (.getpx x y) s = .next t ∧
      t.result.toNat = (s.fb.read (byteIndex x y)).toNat / fieldWeight s.build.shiftDir x.toNat % 4 ∧
      t = { s with run := false, err := .noError, result := t.result }) ∧
    (inRange x y = false → s.rem = [] → exec (.getpx x y) s = .next { s with run := false, err := .rangeError })

/-- FBRD of an address in the frame completes with the byte in RESULT; from 96000 on it ends with RangeError and RESULT
unchanged (R135, R209). REM is empty at acceptance (R30). -/
def Obligations.FbrdReturnsTheByteOrRangeError : Prop :=
  ∀ (addr : Nat) (s : State),
    (addr < 96000 → ∃ t, exec (.fbrd addr) s = .next t ∧ t.result.toNat = (s.fb.read addr).toNat ∧
      t = { s with run := false, err := .noError, result := t.result }) ∧
    (96000 ≤ addr → s.rem = [] → exec (.fbrd addr) s = .next { s with run := false, err := .rangeError })

/-! ### PanelLink (spec/42_panel_link.md) -/

/-- R152: whatever lengths are wanted, the split is in order, without gaps, of non-empty parts of at most MAX_CHUNK, and
a transfer that does not exceed it is not split; with no lengths wanted it is the greedy split. -/
def Obligations.ChunksAreAnAllowedSplit : Prop :=
  ∀ (max : Nat) (cuts : List Nat) (bytes : List Byte), 1 ≤ max →
    Splits max bytes (chunks max cuts bytes) ∧
    (bytes.length ≤ max → bytes ≠ [] → chunks max cuts bytes = [bytes]) ∧
    (chunks max [] bytes).length = (bytes.length + max - 1) / max ∧
    ∀ k ∈ (chunks max [] bytes).dropLast, k.length = max

/-- Every split R152 allows of a transfer longer than MAX_CHUNK is the split for some wanted lengths: the model leaves
out none. -/
def Obligations.EveryAllowedSplitCanHappen : Prop :=
  ∀ (max : Nat) (bytes : List Byte) (ks : List (List Byte)), 1 ≤ max → Splits max bytes ks →
    ∃ cuts, chunks max cuts bytes = ks

/-- SetDC, SetRst and Delay always succeed: the latch takes its value, the event is emitted, the micro-step is taken off
REM (R158, R159, R22). -/
def Obligations.LineAndDelayMicroStepsSucceed : Prop :=
  ∀ (s : State) (r : List MicroStep), PsqMoves s →
    (∀ m, s.rem = .setDC m :: r →
      step s = .next (State.settle { s with rem := r, dc := m, trace := s.trace ++ [.setDC m] }).advance) ∧
    (∀ l, s.rem = .setRst l :: r →
      step s = .next (State.settle { s with rem := r, rst := l, trace := s.trace ++ [.setRst l] }).advance) ∧
    (∀ n, s.rem = .delay n :: r →
      step s = .next (State.settle { s with rem := r, trace := s.trace ++ [.delay n] }).advance)

/-- BusWrite in data mode (R155, R206): a transfer that succeeds is received whole; one that fails is received in part,
REM is emptied, ERR is BusError and PSTATE Uninitialized; DC does not change. -/
def Obligations.DataTransferSucceedsOrAborts : Prop :=
  ∀ (s : State) (bytes : List Byte) (r : List MicroStep), PsqMoves s → s.dc = .data → s.rem = .busWrite bytes :: r →
    (s.input.xferOk = true →
      step s = .next (State.settle { s with
        rem := r, trace := s.trace ++ [.write bytes],
        rx := s.rx ++ bytes.map (fun b => (DcMode.data, b)) }).advance) ∧
    (s.input.xferOk = false →
      step s = .next (State.advance { s with
        rem := [], trace := s.trace ++ [.writeFail bytes],
        rx := s.rx ++ (bytes.take s.input.delivered).map (fun b => (DcMode.data, b)),
        run := false, err := .busError, pstate := .uninitialized }))

/-- A panel opcode byte (R95, R150, R155, R206): every one of the fifteen completes in every state, sent whole and tagged
with the DC mode, or failed with BusError. Its operation ends if REM holds nothing after it. -/
def Obligations.PanelOpcodesAreSentOrAbort : Prop :=
  ∀ (b : Byte) (i : Instr), (b, i) ∈ panelTable → ∀ s : State,
    (s.input.xferOk = true →
      exec i s = .next (State.settle { s with trace := s.trace ++ [.write [b]], rx := s.rx ++ [(s.dc, b)] })) ∧
    (s.input.xferOk = false →
      exec i s = .next { s with
        rem := [], trace := s.trace ++ [.writeFail [b]],
        rx := s.rx ++ ([b].take s.input.delivered).map (fun b => (s.dc, b)),
        run := false, err := .busError, pstate := .uninitialized })

/-- wait_idle (R156, R207): at the ready level it returns with Idle; away from it, a build with a timeout may give up
with TimedOut and Timeout; else nothing changes but that a step has passed. The ready level is 1 iff BUSY_IS_LOW. -/
def Obligations.WaitIdleReturnsGivesUpOrHolds : Prop :=
  ∀ (s : State) (r : List MicroStep), PsqMoves s → s.rem = .waitIdle :: r →
    (s.input.busy = s.build.busyIsLow →
      step s = .next (State.settle { s with rem := r, trace := s.trace ++ [.idle] }).advance) ∧
    (s.input.busy ≠ s.build.busyIsLow → s.build.waitTimeoutMs ≠ none → s.input.timeout = true →
      step s = .next (State.advance { s with
        rem := [], trace := s.trace ++ [.timedOut],
        run := false, err := .timeout, pstate := .uninitialized })) ∧
    (s.input.busy ≠ s.build.busyIsLow → (s.build.waitTimeoutMs = none ∨ s.input.timeout = false) →
      step s = .next s.advance)

/-- The end of an operation (R170, R58): after the last micro-step RUN is 0, ERR 0 and PSTATE what the operation writes;
before it nothing changes. -/
def Obligations.OperationEndsWhenRemIsEmpty : Prop :=
  ∀ s : State, s.run = true →
    (s.rem = [] → s.settle = { s with run := false, err := .noError, pstate := s.onEnd }) ∧
    (s.rem ≠ [] → s.settle = s)

/-! ### PanelDriver (spec/43_panel_driver.md) -/

/-- INIT and WAKE are accepted in every lifecycle state (R172, R173): PSTATE is Uninitialized, REM holds the reset pulse,
a wait, every pair of INIT_SEQ in order, power on and a wait, and the operation will end Ready; each payload is split as
R152 allows; nothing else changes. INIT_SEQ is of any build a table of R171: (a) no payload is empty, (b) every opcode is
one of the nine configuration opcodes, (c) each of the seven enumerated opcodes occurs. -/
def Obligations.InitAndWakeLoadTheInitSequence : Prop :=
  (∀ b : Build,
    (∀ p ∈ b.initSeq.pairs,
      p.2 ≠ [] ∧ p.1 ∈ [0x00#8, 0x01#8, 0x06#8, 0x30#8, 0x50#8, 0x65#8, 0xE3#8, 0x4D#8, 0xE9#8]) ∧
    ∀ o ∈ [0x00#8, 0x50#8, 0x65#8, 0xE3#8, 0x30#8, 0x4D#8, 0xE9#8], ∃ p ∈ b.initSeq.pairs, p.1 = o) ∧
  ∀ s : State, ∃ ks : List (List (List Byte)),
    List.Forall₂ (fun p k => Splits s.build.maxChunk p.2 k) s.build.initSeq.pairs ks ∧
    ∀ i, i = .init ∨ i = .wake →
      exec i s = .next { s with run := true, err := .noError, pstate := .uninitialized, onEnd := .ready, rem :=
        [.setRst true, .delay s.build.rstInitialDelayMs, .setRst false, .delay s.build.rstHoldMs, .setRst true,
          .delay 200, .waitIdle] ++ pairSteps s.build.initSeq.pairs ks ++
        [.setDC .command, .busWrite [0x04#8], .waitIdle] }

/-- SLEEP in Ready loads wait, power off, wait, deep sleep, and will end Sleeping; DISPLAY in Ready loads the refresh
opcode and a wait after it, none before, and will end Ready (R174, R176). -/
def Obligations.SleepAndDisplayLoadTheirSequences : Prop :=
  ∀ s : State, s.pstate = .ready →
    exec .sleep s = .next { s with run := true, err := .noError, onEnd := .sleeping, rem :=
      [.waitIdle, .setDC .command, .busWrite [0x02#8], .waitIdle, .setDC .command, .busWrite [0x07#8]] } ∧
    exec .display s = .next { s with run := true, err := .noError, onEnd := .ready, rem :=
      [.setDC .command, .busWrite [0x12#8], .waitIdle] }

/-- UPDATE 96000 in Ready loads a wait, start data transmission and the frame bytes in increasing address order, split as
R152 allows, and will end Ready (R175, R52). -/
def Obligations.UpdateLoadsTheFrame : Prop :=
  ∀ s : State, s.pstate = .ready → ∃ ks : List (List Byte),
    Splits s.build.maxChunk ((List.range 96000).map s.fb.read) ks ∧
    exec (.update 96000) s = .next { s with run := true, err := .noError, onEnd := .ready, rem :=
      [.waitIdle, .setDC .command, .busWrite [0x10#8], .setDC .data] ++ ks.map .busWrite }

/-- UPDDISP 96000 in Ready loads the steps of UPDATE, then power on and refresh with no wait before them, then a wait
(R177). -/
def Obligations.UpddispLoadsFrameThenRefresh : Prop :=
  ∀ s : State, s.pstate = .ready → ∃ ks : List (List Byte),
    Splits s.build.maxChunk ((List.range 96000).map s.fb.read) ks ∧
    exec (.upddisp 96000) s = .next { s with run := true, err := .noError, onEnd := .ready, rem :=
      [.waitIdle, .setDC .command, .busWrite [0x10#8], .setDC .data] ++ ks.map .busWrite ++
      [.setDC .command, .busWrite [0x04#8], .setDC .command, .busWrite [0x12#8], .waitIdle] }

/-- CLEAR in Ready loads a wait, start data, 96000 times the byte of the background colour, data stop, refresh, a wait;
the frame memory plays no part (R178). -/
def Obligations.ClearLoadsTheBackgroundFill : Prop :=
  ∀ s : State, s.pstate = .ready → ∃ ks : List (List Byte),
    Splits s.build.maxChunk (List.replicate 96000 (BitVec.ofNat 8 (s.bg.code.toNat * 0x55))) ks ∧
    exec .clear s = .next { s with run := true, err := .noError, onEnd := .ready, rem :=
      [.waitIdle, .setDC .command, .busWrite [0x10#8], .setDC .data] ++ ks.map .busWrite ++
      [.setDC .command, .busWrite [0x11#8], .setDC .command, .busWrite [0x12#8], .waitIdle] }

/-- GETBG returns the background colour's code and SETBG sets the background colour, in every state, and nothing is sent
(R179, R180). -/
def Obligations.BackgroundIsReadAndSet : Prop :=
  (∀ s : State, ∃ t, exec .getbg s = .next t ∧ t.result.toNat = s.bg.code.toNat ∧
    t = { s with run := false, err := .noError, result := t.result }) ∧
  ∀ (c : Color) (s : State), exec (.setbg c) s = .next { s with run := false, err := .noError, bg := c }

/-- SETLUT ends with Unsupported whatever its operand and the lifecycle state, and nothing else changes (R181, R204). REM
is empty at acceptance (R30). -/
def Obligations.SetlutIsUnsupported : Prop :=
  ∀ (imm8 : Nat) (s : State), s.rem = [] →
    exec (.setlut imm8) s = .next { s with run := false, err := .unsupported }

/-! ### Errors at acceptance (spec/60_exceptions.md) -/

/-- R202, R203, R212: SLEEP, UPDATE, DISPLAY, UPDDISP and CLEAR outside Ready end with StateError and no other effect,
whatever the length operand; UPDATE and UPDDISP in Ready with a length that is not 96000 end with SizeMismatch and no
other effect; no other host operation ends with StateError. REM is empty at acceptance (R30). -/
def Obligations.StateCheckThenLengthCheck : Prop :=
  ∀ (i : Instr) (s : State), s.rem = [] →
    ((i = .sleep ∨ (∃ n, i = .update n) ∨ i = .display ∨ (∃ n, i = .upddisp n) ∨ i = .clear) → s.pstate ≠ .ready →
      exec i s = .next { s with run := false, err := .stateError }) ∧
    ((∃ n, n ≠ 96000 ∧ (i = .update n ∨ i = .upddisp n)) → s.pstate = .ready →
      exec i s = .next { s with run := false, err := .sizeMismatch }) ∧
    (hostMnemonic i ≠ none →
      ¬ (i = .sleep ∨ (∃ n, i = .update n) ∨ i = .display ∨ (∃ n, i = .upddisp n) ∨ i = .clear) →
      ∀ t, exec i s = .next t → t.err ≠ .stateError)

/-- R205: what `raise` does, for the errors of a micro-step and for those of acceptance. -/
def Obligations.RaiseAbortsTheOperation : Prop :=
  ∀ s : State,
    (∀ e, e = .busError ∨ e = .timeout →
      s.raise e = { s with rem := [], err := e, run := false, pstate := .uninitialized }) ∧
    (∀ e, e = .illegalCommand ∨ e = .stateError ∨ e = .sizeMismatch ∨ e = .unsupported ∨ e = .rangeError →
      s.raise e = { s with rem := [], err := e, run := false })

/-! ### The host port and reset (spec/10_state.md, spec/20_memory.md, spec/70_reset_and_hazards.md) -/

/-- R23, R24, R25, R26, R27, R200, R29: what a host read returns, as a number: the fields of STATUS with the numbers of
the lifecycle states (R23) and of the errors (R200), RESULT, BG, the bits of CONFIG, and 0 for CMD and for every offset
that is not mapped. The electrical level of the DC output, which no read returns, is DC_CMD_LEVEL in mode Command and its
complement in mode Data. -/
def Obligations.HostRegistersReadAsTheirFields : Prop :=
  [PState.uninitialized, .ready, .sleeping].map (fun p => p.code.toNat) = [0, 1, 2] ∧
  [Err.noError, .illegalCommand, .stateError, .sizeMismatch, .unsupported, .busError, .timeout, .lineFault,
    .rangeError].map (fun e => e.code.toNat) = [0, 1, 2, 3, 4, 5, 6, 7, 8] ∧
  (∀ s : State,
    (s.dc = .command → s.dcLevel = s.build.dcCmdLevel) ∧ (s.dc = .data → s.dcLevel = !s.build.dcCmdLevel)) ∧
  ∀ s : State,
    (s.hostRegRead 0x04).toNat = s.run.toNat + 2 * s.pstate.code.toNat + 16 * s.err.code.toNat ∧
    s.hostRegRead 0x08 = s.result ∧
    (s.hostRegRead 0x0C).toNat = s.bg.code.toNat ∧
    (s.hostRegRead 0x10).toNat = (if s.build.shiftDir = .right then 1 else 0) + 2 * s.build.busyIsLow.toNat +
      4 * s.build.dcCmdLevel.toNat + 8 * s.build.waitTimeoutMs.isSome.toNat ∧
    ∀ off, off ∉ [0x04, 0x08, 0x0C, 0x10] → s.hostRegRead off = 0#32

/-- R57, R24, R54: a 32-bit aligned read returns the register and changes nothing of the block; a write to any offset but
CMD is ignored; an access of another width or alignment is refused by name. -/
def Obligations.HostAccessesChangeNothingButCommands : Prop :=
  ∀ (s : State) (n off : Nat),
    (off % 4 = 0 → hostStep (.read n off 4) s = .next { s with reads := s.reads ++ [(n, off, s.hostRegRead off)] }) ∧
    (∀ w, off % 4 = 0 → off ≠ 0 → hostStep (.write n off 4 w) s = .next s) ∧
    (∀ width w, width ≠ 4 → hostStep (.read n off width) s = .refused .hostAccessNot32Bit ∧
      hostStep (.write n off width w) s = .refused .hostAccessNot32Bit) ∧
    (∀ w, off % 4 ≠ 0 → hostStep (.read n off 4) s = .refused .hostAccessUnaligned ∧
      hostStep (.write n off 4 w) s = .refused .hostAccessUnaligned)

/-- R58, R245: while RUN is 1 a CMD write does not complete: it stays first whatever the step is, and as long as only CMD
writes and accesses of its own agent are to come the step is PSQ's. When the host's side moves, its access is no CMD write,
no access of its agent stands before it (so none of an agent whose write is held moves), and the step is that access. An
access of another agent, or block reset, is not held. -/
def Obligations.CommandIsHeldWhileRunning : Prop :=
  ∀ (s : State) (n : Nat) (w : Word) (rest : List HostAct), s.run = true → s.host = .write n 0 4 w :: rest →
    (∀ t, step s = .next t → ∃ rest', t.host = .write n 0 4 w :: rest') ∧
    ((∀ a ∈ rest, a.isCommand = true ∨ a.agent = some n) → step s = mapNext State.advance (psqStep s)) ∧
    (∀ a r, HostMoves s a r →
      a.isCommand = false ∧ a.agent ≠ some n ∧
      (∃ before after, s.host = before ++ a :: after ∧ r = before ++ after ∧ ∀ c ∈ before, c.agent ≠ a.agent) ∧
      step s = mapNext State.advance (hostStep a { s with host := r })) ∧
    ∀ a rest', rest = a :: rest' → a.isCommand = false → a.agent ≠ some n → s.input.hostFirst = true →
      HostMoves s a (.write n 0 4 w :: rest')

/-- R230: block reset, at any time, puts the block at its reset state, but for the latches, which take values the spec
leaves open (free values of the step, log 8), discards a running operation and emits nothing. That the model's own field
`onEnd` is then Uninitialized is the model's choice and no rule of the spec (log 9): nothing reads it until the next
acceptance writes it. -/
def Obligations.BlockResetRestoresTheResetState : Prop :=
  ∀ (s : State) (rest : List HostAct), HostMoves s .blockReset rest →
    step s = .next (State.advance { s with
      host := rest, fb := [], bg := .white, pstate := .uninitialized, run := false, err := .noError, result := 0#32,
      rem := [], onEnd := .uninitialized, dc := s.input.dcAfterReset, rst := s.input.rstAfterReset })

/-- R32, R231: the reset values the spec gives (BG, PSTATE, RUN, ERR, RESULT, REM, FB), the length of the frame, and that
right after reset FBRD of every frame address returns 0x55 and GETPX of every pixel in range returns 1, for any build. The latches have no reset
value in the spec: the values the model names for them (log 6, log 7) are no part of this. -/
def Obligations.ResetStateIsTheSpecs : Prop :=
  State.reset.bg = .white ∧ State.reset.statusReg = 0#32 ∧ State.reset.result = 0#32 ∧ State.reset.rem = [] ∧
  State.reset.trace = [] ∧ State.reset.fb.raw.length = 96000 ∧
  ∀ b : Build,
    (∀ a, a < 96000 → ∃ t, exec (.fbrd a) { State.reset with build := b } = .next t ∧ t.result = 0x55#32) ∧
    ∀ x y : Int, inRange x y = true →
      ∃ t, exec (.getpx x y) { State.reset with build := b } = .next t ∧ t.result = 1#32

/-! ### A step runs the decoded instruction -/

/-- A step in which no operation runs and the host's next access writes a command word that decodes is exec of the
instruction, on the state without that access, and then the draw of the step is used up (R58, log 2); one that writes a
word that does not decode is what the host port does with it. -/
def Obligations.StepRunsTheCommandWord : Prop :=
  ∀ (s : State) (n : Nat) (w : Word) (rest : List HostAct), s.run = false → s.host = .write n 0 4 w :: rest →
    step s = mapNext State.advance (hostStep (.write n 0 4 w) { s with host := rest }) ∧
    ∀ i, decodeHost w = .instr i → step s = mapNext State.advance (exec i { s with host := rest })

/-- A step in which PSQ performs the transfer of a panel opcode byte in command mode is exec of the opcode, on the state
without that micro-step, and then the draw of the step is used up (R22, R95). -/
def Obligations.StepRunsThePanelOpcode : Prop :=
  ∀ (s : State) (b : Byte) (r : List MicroStep) (i : Instr), PsqMoves s → s.dc = .command →
    s.rem = .busWrite [b] :: r → decodePanel b = .instr i →
    step s = mapNext State.advance (exec i { s with rem := r })

/-! ### Frames -/

/-- BITMASK, DECODE, DEFBYTE, GETPX, FBRD and GETBG change RESULT, RUN and ERR and nothing else: not the colours, the
lifecycle state, the latches, REM, the trace, and no byte of the frame (R25, R137). REM is empty at acceptance (R30). -/
def Obligations.FrameOfValueOperations : Prop :=
  ∀ (i : Instr) (s t : State), returnsValue i = true → s.rem = [] → exec i s = .next t →
    (∀ a, t.fb.read a = s.fb.read a) ∧ t = { s with run := t.run, err := t.err, result := t.result }

/-- INIT, WAKE, SLEEP, UPDATE, DISPLAY, UPDDISP, CLEAR and SETLUT at acceptance change RUN, ERR, REM and what the
operation will write at its end, and PSTATE only for INIT and WAKE; no byte of the frame, no colour, no latch, no RESULT,
and nothing is sent (R170, R137, R215). -/
def Obligations.FrameOfPanelOperations : Prop :=
  ∀ (i : Instr) (s t : State),
    (i = .init ∨ i = .wake ∨ i = .sleep ∨ (∃ n, i = .update n) ∨ i = .display ∨ (∃ n, i = .upddisp n) ∨ i = .clear ∨
      ∃ n, i = .setlut n) →
    exec i s = .next t →
    (∀ a, t.fb.read a = s.fb.read a) ∧ (i ≠ .init → i ≠ .wake → t.pstate = s.pstate) ∧
    t = { s with run := t.run, err := t.err, pstate := t.pstate, rem := t.rem, onEnd := t.onEnd }

/-- The fifteen panel opcodes change the trace, the bytes received and how the operation stands; no byte of the frame, no
colour, no RESULT, no latch (R155, R205). -/
def Obligations.FrameOfPanelOpcodes : Prop :=
  ∀ (b : Byte) (i : Instr) (s t : State), (b, i) ∈ panelTable → exec i s = .next t →
    (∀ a, t.fb.read a = s.fb.read a) ∧
    t = { s with run := t.run, err := t.err, pstate := t.pstate, rem := t.rem, trace := t.trace, rx := t.rx }

/-! ### Whole-machine rules -/

/-- The invariant holds at reset. -/
def Obligations.ResetSatisfiesInv : Prop := BlockInv State.reset

/-- Every step keeps the invariant: canonical frame, no LineFault, REM empty when idle and not when running, the
lifecycle of a running operation, transfers as PanelLink makes them (R22, R28, R30, R155, R208, R215). -/
def Obligations.StepKeepsInv : Prop := ∀ s t : State, BlockInv s → step s = .next t → BlockInv t

/-- From a state that meets the invariant no step faults: PSQ never comes to send a command-mode transfer that is no
opcode of R95 (R97). -/
def Obligations.InvStatesStepSafely : Prop := ∀ s : State, BlockInv s → SafeStep s

/-- R215: the complete transition relation of PSTATE, over every step. -/
def Obligations.LifecycleTransitionsAreComplete : Prop :=
  ∀ s t : State, BlockInv s → step s = .next t → t.pstate ≠ s.pstate →
    (Resets s ∧ t.pstate = .uninitialized) ∨
    ((Accepts s .init ∨ Accepts s .wake) ∧ t.pstate = .uninitialized ∧ t.run = true) ∨
    (s.run = true ∧ s.onEnd = .ready ∧ s.pstate = .uninitialized ∧ t.pstate = .ready ∧ t.run = false ∧
      t.err = .noError) ∨
    (s.run = true ∧ s.onEnd = .sleeping ∧ s.pstate = .ready ∧ t.pstate = .sleeping ∧ t.run = false ∧
      t.err = .noError) ∨
    (s.run = true ∧ t.pstate = .uninitialized ∧ t.run = false ∧ (t.err = .busError ∨ t.err = .timeout))

/-- R137 (c), R28: the frame memory changes in no step but the acceptance of FBINIT, the acceptance of SETPX in range, and
block reset; SETPX changes one byte at most. -/
def Obligations.OnlyFbinitSetpxAndResetChangeTheFrame : Prop :=
  ∀ s t : State, step s = .next t → t.fb ≠ s.fb →
    Resets s ∨ Accepts s .fbinit ∨
    ∃ x y c, Accepts s (.setpx x y c) ∧ inRange x y = true ∧
      (s.fb.wf = true → ∀ a, a ≠ byteIndex x y → t.fb.read a = s.fb.read a)

/-- R26: BG is written only by SETBG and by block reset. -/
def Obligations.OnlySetbgAndResetChangeBg : Prop :=
  ∀ s t : State, step s = .next t → t.bg ≠ s.bg → Resets s ∨ ∃ c, Accepts s (.setbg c) ∧ t.bg = c

/-- R25: RESULT changes only when an operation that returns a value ends in success, and by block reset. -/
def Obligations.OnlyValueOperationsChangeResult : Prop :=
  ∀ s t : State, step s = .next t → t.result ≠ s.result →
    Resets s ∨ ∃ i, Accepts s i ∧ returnsValue i = true ∧ t.err = .noError

/-- R29: the DC and RST latches change only by the SetDC and SetRst micro-steps, whose events are emitted, and by block
reset. -/
def Obligations.OnlyLineMicroStepsChangeTheLatches : Prop :=
  ∀ s t : State, step s = .next t →
    (t.dc ≠ s.dc → Resets s ∨ (Performs s (.setDC t.dc) ∧ t.trace = s.trace ++ [.setDC t.dc])) ∧
    (t.rst ≠ s.rst → Resets s ∨ (Performs s (.setRst t.rst) ∧ t.trace = s.trace ++ [.setRst t.rst]))

/-- A step emits at most one event, takes none back, and does so only when PSQ moves; it never changes the build
(R10, R11, R31). -/
def Obligations.StepEmitsAtMostOneEvent : Prop :=
  ∀ s t : State, step s = .next t →
    t.build = s.build ∧ (t.trace = s.trace ∨ (PsqMoves s ∧ ∃ e, t.trace = s.trace ++ [e]))

/-- The trace invariant holds at reset and every step keeps it: as long as no transfer has failed, the stream of the
trace is the tagged bytes the panel received (R10, R155). -/
def Obligations.StreamIsWhatThePanelReceived : Prop :=
  TraceInv State.reset ∧ ∀ s t : State, BlockInv s → TraceInv s → step s = .next t → TraceInv t

/-- R97: in every run from reset all the panel receives in command mode is opcode bytes of R95, part of a failed transfer
included. -/
def Obligations.CommandBytesAreAlwaysOpcodes : Prop :=
  CommandBytesOk State.reset ∧ ∀ s t : State, CommandBytesOk s → step s = .next t → CommandBytesOk t

/-- An operation whose every wait finds the panel ready and whose every transfer succeeds ends in success, in one step
per micro-step, with one event per micro-step in the order of REM, and writes its PSTATE; the frame memory, BG and RESULT
are as before (R170, R244, R22). -/
def Obligations.GrantedOperationRunsToItsEnd : Prop :=
  ∀ s : State, BlockInv s → s.run = true → s.host = [] → s.rem.length ≤ s.inputs.length →
    (∀ e ∈ s.inputs.take s.rem.length, Granted s.build e = true) →
    ∃ t, Sys2Proof.core.run s.rem.length s = .next t ∧
      t.run = false ∧ t.err = .noError ∧ t.rem = [] ∧ t.pstate = s.onEnd ∧
      t.trace = s.trace ++ s.rem.map MicroStep.event ∧
      t.fb = s.fb ∧ t.bg = s.bg ∧ t.result = s.result

/-- R236, R12: with no timeout and the busy input never ready, an operation at a wait never ends, however many steps
pass, while the host's side has only CMD writes and accesses of an agent whose CMD write is held to make: RUN stays 1,
REM and the trace stay as they are, and all those accesses wait. -/
def Obligations.StuckBusyInputHangsTheBlock : Prop :=
  ∀ (k : Nat) (s : State) (n : Nat) (w : Word) (r : List MicroStep) (rest : List HostAct), s.run = true →
    s.rem = .waitIdle :: r → s.host = .write n 0 4 w :: rest →
    (∀ a ∈ rest, a.isCommand = true ∨ a.agent = some n) →
    s.build.waitTimeoutMs = none →
    k ≤ s.inputs.length → (∀ e ∈ s.inputs.take k, e.busy ≠ s.build.busyIsLow) →
    ∃ t, Sys2Proof.core.run k s = .next t ∧
      t.run = true ∧ t.rem = s.rem ∧ t.trace = s.trace ∧ t.host = s.host
end

