-- ==== Sys2Proof/Laws/Memory.lean ====
section
/-! SUPPORT. The laws of the frame memory: reading after writing, the canonical form kept, equal contents equal data. -/

namespace Sys2Proof.Machine

theorem Memory.read_consCell (a : Nat) (v : Byte) (m : Memory) (x : Nat) (h : Memory.read m a = Memory.unlisted) :
    Memory.read (Memory.consCell a v m) x = if x = a then v else Memory.read m x := by
  unfold Memory.consCell
  split
  · split
    · subst_vars; exact h
    · rfl
  · rfl

/-- Below its first address a canonical memory lists nothing. -/
theorem Memory.read_of_lt {lo : Nat} {m : Memory} (h : Memory.wfFrom lo m = true) {a : Nat} (ha : a < lo) :
    Memory.read m a = Memory.unlisted := by
  induction m generalizing lo with
  | nil => rfl
  | cons c m ih =>
    obtain ⟨b, v⟩ := c
    simp only [Memory.wfFrom, Bool.and_eq_true, decide_eq_true_eq] at h
    rw [Memory.read, if_neg (by omega)]
    exact ih h.2 (by omega)

theorem Memory.wfFrom_mono {lo lo' : Nat} {m : Memory} (h : Memory.wfFrom lo m = true) (hl : lo' ≤ lo) :
    Memory.wfFrom lo' m = true := by
  cases m with
  | nil => rfl
  | cons c m =>
    obtain ⟨b, v⟩ := c
    simp only [Memory.wfFrom, Bool.and_eq_true, decide_eq_true_eq] at h ⊢
    exact ⟨⟨⟨by omega, h.1.1.2⟩, h.1.2⟩, h.2⟩

theorem Memory.wfFrom_consCell {lo a : Nat} {v : Byte} {m : Memory} (hlo : lo ≤ a) (ha : a < fbLen)
    (h : Memory.wfFrom (a + 1) m = true) : Memory.wfFrom lo (Memory.consCell a v m) = true := by
  unfold Memory.consCell
  split
  · exact Memory.wfFrom_mono h (by omega)
  · next hv => simp [Memory.wfFrom, hlo, ha, hv, h]

theorem Memory.wfFrom_write {lo a : Nat} {v : Byte} {m : Memory} (h : Memory.wfFrom lo m = true) (hlo : lo ≤ a)
    (ha : a < fbLen) : Memory.wfFrom lo (Memory.write m a v) = true := by
  induction m generalizing lo with
  | nil => exact Memory.wfFrom_consCell hlo ha rfl
  | cons c m ih =>
    obtain ⟨b, w⟩ := c
    have h' := h
    simp only [Memory.wfFrom, Bool.and_eq_true, decide_eq_true_eq] at h'
    unfold Memory.write
    split
    · refine Memory.wfFrom_consCell hlo ha ?_
      simp only [Memory.wfFrom, Bool.and_eq_true, decide_eq_true_eq]
      exact ⟨⟨⟨by omega, h'.1.1.2⟩, h'.1.2⟩, h'.2⟩
    · split
      · subst_vars; exact Memory.wfFrom_consCell hlo ha h'.2
      · simp only [Memory.wfFrom, Bool.and_eq_true, decide_eq_true_eq]
        exact ⟨⟨⟨h'.1.1.1, h'.1.1.2⟩, h'.1.2⟩, ih h'.2 (by omega)⟩

/-- A write of a frame byte keeps the canonical form. -/
theorem Memory.wf_write {m : Memory} {a : Nat} {v : Byte} (h : m.wf = true) (ha : a < fbLen) :
    (m.write a v).wf = true := Memory.wfFrom_write h (Nat.zero_le a) ha

/-- The empty memory, which reset and FBINIT leave, is canonical. -/
theorem Memory.wf_nil : Memory.wf [] = true := rfl

theorem Memory.read_write_from {lo : Nat} {m : Memory} (h : Memory.wfFrom lo m = true) (a : Nat) (v : Byte) (x : Nat) :
    Memory.read (Memory.write m a v) x = if x = a then v else Memory.read m x := by
  induction m generalizing lo with
  | nil => exact Memory.read_consCell a v [] x rfl
  | cons c m ih =>
    obtain ⟨b, w⟩ := c
    have h' := h
    simp only [Memory.wfFrom, Bool.and_eq_true, decide_eq_true_eq] at h'
    unfold Memory.write
    split
    · next hab =>
      refine Memory.read_consCell a v _ x ?_
      rw [Memory.read, if_neg (by omega)]
      exact Memory.read_of_lt h'.2 (by omega)
    · split
      · next hab =>
        subst hab
        rw [Memory.read_consCell a v m x (Memory.read_of_lt h'.2 (by omega))]
        by_cases hx : x = a
        · simp [hx]
        · simp [hx, Memory.read]
      · rw [Memory.read, Memory.read, ih h'.2]
        by_cases hx : x = b
        · have : ¬ x = a := by omega
          simp [hx]; omega
        · simp [hx]

/-- Everything a write does to the contents: the byte written reads as written, every other byte as before. -/
theorem Memory.read_write {m : Memory} (h : m.wf = true) (a : Nat) (v : Byte) (x : Nat) :
    (m.write a v).read x = if x = a then v else m.read x := Memory.read_write_from h a v x

/-- Two canonical memories with the same contents are the same data. -/
theorem Memory.ext_from {lo : Nat} {m n : Memory} (hm : Memory.wfFrom lo m = true) (hn : Memory.wfFrom lo n = true)
    (h : ∀ a, m.read a = n.read a) : m = n := by
  induction m generalizing lo n with
  | nil =>
    cases n with
    | nil => rfl
    | cons c n =>
      obtain ⟨b, w⟩ := c
      simp only [Memory.wfFrom, Bool.and_eq_true, decide_eq_true_eq] at hn
      have := h b
      simp only [Memory.read, if_true] at this
      exact absurd this.symm hn.1.2
  | cons c m ih =>
    obtain ⟨b, w⟩ := c
    simp only [Memory.wfFrom, Bool.and_eq_true, decide_eq_true_eq] at hm
    cases n with
    | nil =>
      have := h b
      simp only [Memory.read, if_true] at this
      exact absurd this hm.1.2
    | cons d n =>
      obtain ⟨b', w'⟩ := d
      simp only [Memory.wfFrom, Bool.and_eq_true, decide_eq_true_eq] at hn
      have hb : b = b' := by
        rcases Nat.lt_trichotomy b b' with hlt | heq | hlt
        · have := h b
          simp only [Memory.read, if_true, if_neg (Nat.ne_of_lt hlt)] at this
          rw [Memory.read_of_lt hn.2 (by omega)] at this
          exact absurd this hm.1.2
        · exact heq
        · have := h b'
          simp only [Memory.read, if_true, if_neg (Nat.ne_of_lt hlt)] at this
          rw [Memory.read_of_lt hm.2 (by omega)] at this
          exact absurd this.symm hn.1.2
      subst hb
      have hw : w = w' := by have := h b; simpa [Memory.read] using this
      subst hw
      rw [ih hm.2 hn.2 (fun a => ?_)]
      by_cases ha : a = b
      · subst ha; rw [Memory.read_of_lt hm.2 (by omega), Memory.read_of_lt hn.2 (by omega)]
      · have := h a; simpa [Memory.read, ha] using this

/-- Equal contents, equal data (the canonical form is canonical). -/
theorem Memory.wf_ext {m n : Memory} (hm : m.wf = true) (hn : n.wf = true) (h : ∀ a, m.read a = n.read a) : m = n :=
  Memory.ext_from hm hn h

/-- The raw view has FB_LEN bytes. -/
theorem Memory.raw_length (m : Memory) : m.raw.length = fbLen := by simp [Memory.raw]

/-- The unlisted byte is the default byte of R116. -/
theorem Memory.unlisted_eq_defaultByte : Memory.unlisted = defaultByte := by decide

end Sys2Proof.Machine
end

