-- ==== Sys2Proof/Laws/State.lean ====
section
/-! SUPPORT. One lemma per field per update of the state, each true by unfolding, so that no later proof unfolds a record
update. -/

namespace Sys2Proof.Machine

variable (s : State)

/-! ### State.advance -/

@[simp] theorem State.advance_fb : s.advance.fb = s.fb := rfl
@[simp] theorem State.advance_bg : s.advance.bg = s.bg := rfl
@[simp] theorem State.advance_pstate : s.advance.pstate = s.pstate := rfl
@[simp] theorem State.advance_run : s.advance.run = s.run := rfl
@[simp] theorem State.advance_err : s.advance.err = s.err := rfl
@[simp] theorem State.advance_result : s.advance.result = s.result := rfl
@[simp] theorem State.advance_dc : s.advance.dc = s.dc := rfl
@[simp] theorem State.advance_rst : s.advance.rst = s.rst := rfl
@[simp] theorem State.advance_rem : s.advance.rem = s.rem := rfl
@[simp] theorem State.advance_onEnd : s.advance.onEnd = s.onEnd := rfl
@[simp] theorem State.advance_build : s.advance.build = s.build := rfl
@[simp] theorem State.advance_host : s.advance.host = s.host := rfl
@[simp] theorem State.advance_inputs : s.advance.inputs = s.inputs.tail := rfl
@[simp] theorem State.advance_tick : s.advance.tick = s.tick + 1 := rfl
@[simp] theorem State.advance_trace : s.advance.trace = s.trace := rfl
@[simp] theorem State.advance_rx : s.advance.rx = s.rx := rfl
@[simp] theorem State.advance_reads : s.advance.reads = s.reads := rfl

/-! ### State.emit -/

@[simp] theorem State.emit_fb (e : Event) : (s.emit e).fb = s.fb := rfl
@[simp] theorem State.emit_bg (e : Event) : (s.emit e).bg = s.bg := rfl
@[simp] theorem State.emit_pstate (e : Event) : (s.emit e).pstate = s.pstate := rfl
@[simp] theorem State.emit_run (e : Event) : (s.emit e).run = s.run := rfl
@[simp] theorem State.emit_err (e : Event) : (s.emit e).err = s.err := rfl
@[simp] theorem State.emit_result (e : Event) : (s.emit e).result = s.result := rfl
@[simp] theorem State.emit_dc (e : Event) : (s.emit e).dc = s.dc := rfl
@[simp] theorem State.emit_rst (e : Event) : (s.emit e).rst = s.rst := rfl
@[simp] theorem State.emit_rem (e : Event) : (s.emit e).rem = s.rem := rfl
@[simp] theorem State.emit_onEnd (e : Event) : (s.emit e).onEnd = s.onEnd := rfl
@[simp] theorem State.emit_build (e : Event) : (s.emit e).build = s.build := rfl
@[simp] theorem State.emit_host (e : Event) : (s.emit e).host = s.host := rfl
@[simp] theorem State.emit_inputs (e : Event) : (s.emit e).inputs = s.inputs := rfl
@[simp] theorem State.emit_tick (e : Event) : (s.emit e).tick = s.tick := rfl
@[simp] theorem State.emit_trace (e : Event) : (s.emit e).trace = s.trace ++ [e] := rfl
@[simp] theorem State.emit_rx (e : Event) : (s.emit e).rx = s.rx := rfl
@[simp] theorem State.emit_reads (e : Event) : (s.emit e).reads = s.reads := rfl

/-! ### State.receive -/

@[simp] theorem State.receive_fb (bytes : List Byte) : (s.receive bytes).fb = s.fb := rfl
@[simp] theorem State.receive_bg (bytes : List Byte) : (s.receive bytes).bg = s.bg := rfl
@[simp] theorem State.receive_pstate (bytes : List Byte) : (s.receive bytes).pstate = s.pstate := rfl
@[simp] theorem State.receive_run (bytes : List Byte) : (s.receive bytes).run = s.run := rfl
@[simp] theorem State.receive_err (bytes : List Byte) : (s.receive bytes).err = s.err := rfl
@[simp] theorem State.receive_result (bytes : List Byte) : (s.receive bytes).result = s.result := rfl
@[simp] theorem State.receive_dc (bytes : List Byte) : (s.receive bytes).dc = s.dc := rfl
@[simp] theorem State.receive_rst (bytes : List Byte) : (s.receive bytes).rst = s.rst := rfl
@[simp] theorem State.receive_rem (bytes : List Byte) : (s.receive bytes).rem = s.rem := rfl
@[simp] theorem State.receive_onEnd (bytes : List Byte) : (s.receive bytes).onEnd = s.onEnd := rfl
@[simp] theorem State.receive_build (bytes : List Byte) : (s.receive bytes).build = s.build := rfl
@[simp] theorem State.receive_host (bytes : List Byte) : (s.receive bytes).host = s.host := rfl
@[simp] theorem State.receive_inputs (bytes : List Byte) : (s.receive bytes).inputs = s.inputs := rfl
@[simp] theorem State.receive_tick (bytes : List Byte) : (s.receive bytes).tick = s.tick := rfl
@[simp] theorem State.receive_trace (bytes : List Byte) : (s.receive bytes).trace = s.trace := rfl
@[simp] theorem State.receive_rx (bytes : List Byte) : (s.receive bytes).rx = s.rx ++ bytes.map (fun b => (s.dc, b)) := rfl
@[simp] theorem State.receive_reads (bytes : List Byte) : (s.receive bytes).reads = s.reads := rfl

/-! ### State.popRem -/

@[simp] theorem State.popRem_fb : s.popRem.fb = s.fb := rfl
@[simp] theorem State.popRem_bg : s.popRem.bg = s.bg := rfl
@[simp] theorem State.popRem_pstate : s.popRem.pstate = s.pstate := rfl
@[simp] theorem State.popRem_run : s.popRem.run = s.run := rfl
@[simp] theorem State.popRem_err : s.popRem.err = s.err := rfl
@[simp] theorem State.popRem_result : s.popRem.result = s.result := rfl
@[simp] theorem State.popRem_dc : s.popRem.dc = s.dc := rfl
@[simp] theorem State.popRem_rst : s.popRem.rst = s.rst := rfl
@[simp] theorem State.popRem_rem : s.popRem.rem = s.rem.tail := rfl
@[simp] theorem State.popRem_onEnd : s.popRem.onEnd = s.onEnd := rfl
@[simp] theorem State.popRem_build : s.popRem.build = s.build := rfl
@[simp] theorem State.popRem_host : s.popRem.host = s.host := rfl
@[simp] theorem State.popRem_inputs : s.popRem.inputs = s.inputs := rfl
@[simp] theorem State.popRem_tick : s.popRem.tick = s.tick := rfl
@[simp] theorem State.popRem_trace : s.popRem.trace = s.trace := rfl
@[simp] theorem State.popRem_rx : s.popRem.rx = s.rx := rfl
@[simp] theorem State.popRem_reads : s.popRem.reads = s.reads := rfl

/-! ### State.setResult -/

@[simp] theorem State.setResult_fb (w : Word) : (s.setResult w).fb = s.fb := rfl
@[simp] theorem State.setResult_bg (w : Word) : (s.setResult w).bg = s.bg := rfl
@[simp] theorem State.setResult_pstate (w : Word) : (s.setResult w).pstate = s.pstate := rfl
@[simp] theorem State.setResult_run (w : Word) : (s.setResult w).run = s.run := rfl
@[simp] theorem State.setResult_err (w : Word) : (s.setResult w).err = s.err := rfl
@[simp] theorem State.setResult_result (w : Word) : (s.setResult w).result = w := rfl
@[simp] theorem State.setResult_dc (w : Word) : (s.setResult w).dc = s.dc := rfl
@[simp] theorem State.setResult_rst (w : Word) : (s.setResult w).rst = s.rst := rfl
@[simp] theorem State.setResult_rem (w : Word) : (s.setResult w).rem = s.rem := rfl
@[simp] theorem State.setResult_onEnd (w : Word) : (s.setResult w).onEnd = s.onEnd := rfl
@[simp] theorem State.setResult_build (w : Word) : (s.setResult w).build = s.build := rfl
@[simp] theorem State.setResult_host (w : Word) : (s.setResult w).host = s.host := rfl
@[simp] theorem State.setResult_inputs (w : Word) : (s.setResult w).inputs = s.inputs := rfl
@[simp] theorem State.setResult_tick (w : Word) : (s.setResult w).tick = s.tick := rfl
@[simp] theorem State.setResult_trace (w : Word) : (s.setResult w).trace = s.trace := rfl
@[simp] theorem State.setResult_rx (w : Word) : (s.setResult w).rx = s.rx := rfl
@[simp] theorem State.setResult_reads (w : Word) : (s.setResult w).reads = s.reads := rfl

/-! ### State.setFb -/

@[simp] theorem State.setFb_fb (m : Memory) : (s.setFb m).fb = m := rfl
@[simp] theorem State.setFb_bg (m : Memory) : (s.setFb m).bg = s.bg := rfl
@[simp] theorem State.setFb_pstate (m : Memory) : (s.setFb m).pstate = s.pstate := rfl
@[simp] theorem State.setFb_run (m : Memory) : (s.setFb m).run = s.run := rfl
@[simp] theorem State.setFb_err (m : Memory) : (s.setFb m).err = s.err := rfl
@[simp] theorem State.setFb_result (m : Memory) : (s.setFb m).result = s.result := rfl
@[simp] theorem State.setFb_dc (m : Memory) : (s.setFb m).dc = s.dc := rfl
@[simp] theorem State.setFb_rst (m : Memory) : (s.setFb m).rst = s.rst := rfl
@[simp] theorem State.setFb_rem (m : Memory) : (s.setFb m).rem = s.rem := rfl
@[simp] theorem State.setFb_onEnd (m : Memory) : (s.setFb m).onEnd = s.onEnd := rfl
@[simp] theorem State.setFb_build (m : Memory) : (s.setFb m).build = s.build := rfl
@[simp] theorem State.setFb_host (m : Memory) : (s.setFb m).host = s.host := rfl
@[simp] theorem State.setFb_inputs (m : Memory) : (s.setFb m).inputs = s.inputs := rfl
@[simp] theorem State.setFb_tick (m : Memory) : (s.setFb m).tick = s.tick := rfl
@[simp] theorem State.setFb_trace (m : Memory) : (s.setFb m).trace = s.trace := rfl
@[simp] theorem State.setFb_rx (m : Memory) : (s.setFb m).rx = s.rx := rfl
@[simp] theorem State.setFb_reads (m : Memory) : (s.setFb m).reads = s.reads := rfl

/-! ### State.setBg -/

@[simp] theorem State.setBg_fb (c : Color) : (s.setBg c).fb = s.fb := rfl
@[simp] theorem State.setBg_bg (c : Color) : (s.setBg c).bg = c := rfl
@[simp] theorem State.setBg_pstate (c : Color) : (s.setBg c).pstate = s.pstate := rfl
@[simp] theorem State.setBg_run (c : Color) : (s.setBg c).run = s.run := rfl
@[simp] theorem State.setBg_err (c : Color) : (s.setBg c).err = s.err := rfl
@[simp] theorem State.setBg_result (c : Color) : (s.setBg c).result = s.result := rfl
@[simp] theorem State.setBg_dc (c : Color) : (s.setBg c).dc = s.dc := rfl
@[simp] theorem State.setBg_rst (c : Color) : (s.setBg c).rst = s.rst := rfl
@[simp] theorem State.setBg_rem (c : Color) : (s.setBg c).rem = s.rem := rfl
@[simp] theorem State.setBg_onEnd (c : Color) : (s.setBg c).onEnd = s.onEnd := rfl
@[simp] theorem State.setBg_build (c : Color) : (s.setBg c).build = s.build := rfl
@[simp] theorem State.setBg_host (c : Color) : (s.setBg c).host = s.host := rfl
@[simp] theorem State.setBg_inputs (c : Color) : (s.setBg c).inputs = s.inputs := rfl
@[simp] theorem State.setBg_tick (c : Color) : (s.setBg c).tick = s.tick := rfl
@[simp] theorem State.setBg_trace (c : Color) : (s.setBg c).trace = s.trace := rfl
@[simp] theorem State.setBg_rx (c : Color) : (s.setBg c).rx = s.rx := rfl
@[simp] theorem State.setBg_reads (c : Color) : (s.setBg c).reads = s.reads := rfl

/-! ### State.setPstate -/

@[simp] theorem State.setPstate_fb (p : PState) : (s.setPstate p).fb = s.fb := rfl
@[simp] theorem State.setPstate_bg (p : PState) : (s.setPstate p).bg = s.bg := rfl
@[simp] theorem State.setPstate_pstate (p : PState) : (s.setPstate p).pstate = p := rfl
@[simp] theorem State.setPstate_run (p : PState) : (s.setPstate p).run = s.run := rfl
@[simp] theorem State.setPstate_err (p : PState) : (s.setPstate p).err = s.err := rfl
@[simp] theorem State.setPstate_result (p : PState) : (s.setPstate p).result = s.result := rfl
@[simp] theorem State.setPstate_dc (p : PState) : (s.setPstate p).dc = s.dc := rfl
@[simp] theorem State.setPstate_rst (p : PState) : (s.setPstate p).rst = s.rst := rfl
@[simp] theorem State.setPstate_rem (p : PState) : (s.setPstate p).rem = s.rem := rfl
@[simp] theorem State.setPstate_onEnd (p : PState) : (s.setPstate p).onEnd = s.onEnd := rfl
@[simp] theorem State.setPstate_build (p : PState) : (s.setPstate p).build = s.build := rfl
@[simp] theorem State.setPstate_host (p : PState) : (s.setPstate p).host = s.host := rfl
@[simp] theorem State.setPstate_inputs (p : PState) : (s.setPstate p).inputs = s.inputs := rfl
@[simp] theorem State.setPstate_tick (p : PState) : (s.setPstate p).tick = s.tick := rfl
@[simp] theorem State.setPstate_trace (p : PState) : (s.setPstate p).trace = s.trace := rfl
@[simp] theorem State.setPstate_rx (p : PState) : (s.setPstate p).rx = s.rx := rfl
@[simp] theorem State.setPstate_reads (p : PState) : (s.setPstate p).reads = s.reads := rfl

/-! ### State.setDc -/

@[simp] theorem State.setDc_fb (m : DcMode) : (s.setDc m).fb = s.fb := rfl
@[simp] theorem State.setDc_bg (m : DcMode) : (s.setDc m).bg = s.bg := rfl
@[simp] theorem State.setDc_pstate (m : DcMode) : (s.setDc m).pstate = s.pstate := rfl
@[simp] theorem State.setDc_run (m : DcMode) : (s.setDc m).run = s.run := rfl
@[simp] theorem State.setDc_err (m : DcMode) : (s.setDc m).err = s.err := rfl
@[simp] theorem State.setDc_result (m : DcMode) : (s.setDc m).result = s.result := rfl
@[simp] theorem State.setDc_dc (m : DcMode) : (s.setDc m).dc = m := rfl
@[simp] theorem State.setDc_rst (m : DcMode) : (s.setDc m).rst = s.rst := rfl
@[simp] theorem State.setDc_rem (m : DcMode) : (s.setDc m).rem = s.rem := rfl
@[simp] theorem State.setDc_onEnd (m : DcMode) : (s.setDc m).onEnd = s.onEnd := rfl
@[simp] theorem State.setDc_build (m : DcMode) : (s.setDc m).build = s.build := rfl
@[simp] theorem State.setDc_host (m : DcMode) : (s.setDc m).host = s.host := rfl
@[simp] theorem State.setDc_inputs (m : DcMode) : (s.setDc m).inputs = s.inputs := rfl
@[simp] theorem State.setDc_tick (m : DcMode) : (s.setDc m).tick = s.tick := rfl
@[simp] theorem State.setDc_trace (m : DcMode) : (s.setDc m).trace = s.trace := rfl
@[simp] theorem State.setDc_rx (m : DcMode) : (s.setDc m).rx = s.rx := rfl
@[simp] theorem State.setDc_reads (m : DcMode) : (s.setDc m).reads = s.reads := rfl

/-! ### State.setRst -/

@[simp] theorem State.setRst_fb (l : Bool) : (s.setRst l).fb = s.fb := rfl
@[simp] theorem State.setRst_bg (l : Bool) : (s.setRst l).bg = s.bg := rfl
@[simp] theorem State.setRst_pstate (l : Bool) : (s.setRst l).pstate = s.pstate := rfl
@[simp] theorem State.setRst_run (l : Bool) : (s.setRst l).run = s.run := rfl
@[simp] theorem State.setRst_err (l : Bool) : (s.setRst l).err = s.err := rfl
@[simp] theorem State.setRst_result (l : Bool) : (s.setRst l).result = s.result := rfl
@[simp] theorem State.setRst_dc (l : Bool) : (s.setRst l).dc = s.dc := rfl
@[simp] theorem State.setRst_rst (l : Bool) : (s.setRst l).rst = l := rfl
@[simp] theorem State.setRst_rem (l : Bool) : (s.setRst l).rem = s.rem := rfl
@[simp] theorem State.setRst_onEnd (l : Bool) : (s.setRst l).onEnd = s.onEnd := rfl
@[simp] theorem State.setRst_build (l : Bool) : (s.setRst l).build = s.build := rfl
@[simp] theorem State.setRst_host (l : Bool) : (s.setRst l).host = s.host := rfl
@[simp] theorem State.setRst_inputs (l : Bool) : (s.setRst l).inputs = s.inputs := rfl
@[simp] theorem State.setRst_tick (l : Bool) : (s.setRst l).tick = s.tick := rfl
@[simp] theorem State.setRst_trace (l : Bool) : (s.setRst l).trace = s.trace := rfl
@[simp] theorem State.setRst_rx (l : Bool) : (s.setRst l).rx = s.rx := rfl
@[simp] theorem State.setRst_reads (l : Bool) : (s.setRst l).reads = s.reads := rfl

/-! ### State.succeed -/

@[simp] theorem State.succeed_fb : s.succeed.fb = s.fb := rfl
@[simp] theorem State.succeed_bg : s.succeed.bg = s.bg := rfl
@[simp] theorem State.succeed_pstate : s.succeed.pstate = s.pstate := rfl
@[simp] theorem State.succeed_run : s.succeed.run = false := rfl
@[simp] theorem State.succeed_err : s.succeed.err = .noError := rfl
@[simp] theorem State.succeed_result : s.succeed.result = s.result := rfl
@[simp] theorem State.succeed_dc : s.succeed.dc = s.dc := rfl
@[simp] theorem State.succeed_rst : s.succeed.rst = s.rst := rfl
@[simp] theorem State.succeed_rem : s.succeed.rem = s.rem := rfl
@[simp] theorem State.succeed_onEnd : s.succeed.onEnd = s.onEnd := rfl
@[simp] theorem State.succeed_build : s.succeed.build = s.build := rfl
@[simp] theorem State.succeed_host : s.succeed.host = s.host := rfl
@[simp] theorem State.succeed_inputs : s.succeed.inputs = s.inputs := rfl
@[simp] theorem State.succeed_tick : s.succeed.tick = s.tick := rfl
@[simp] theorem State.succeed_trace : s.succeed.trace = s.trace := rfl
@[simp] theorem State.succeed_rx : s.succeed.rx = s.rx := rfl
@[simp] theorem State.succeed_reads : s.succeed.reads = s.reads := rfl

/-! ### State.launch -/

@[simp] theorem State.launch_fb (steps : List MicroStep) (p : PState) : (s.launch steps p).fb = s.fb := rfl
@[simp] theorem State.launch_bg (steps : List MicroStep) (p : PState) : (s.launch steps p).bg = s.bg := rfl
@[simp] theorem State.launch_pstate (steps : List MicroStep) (p : PState) : (s.launch steps p).pstate = s.pstate := rfl
@[simp] theorem State.launch_run (steps : List MicroStep) (p : PState) : (s.launch steps p).run = true := rfl
@[simp] theorem State.launch_err (steps : List MicroStep) (p : PState) : (s.launch steps p).err = .noError := rfl
@[simp] theorem State.launch_result (steps : List MicroStep) (p : PState) : (s.launch steps p).result = s.result := rfl
@[simp] theorem State.launch_dc (steps : List MicroStep) (p : PState) : (s.launch steps p).dc = s.dc := rfl
@[simp] theorem State.launch_rst (steps : List MicroStep) (p : PState) : (s.launch steps p).rst = s.rst := rfl
@[simp] theorem State.launch_rem (steps : List MicroStep) (p : PState) : (s.launch steps p).rem = steps := rfl
@[simp] theorem State.launch_onEnd (steps : List MicroStep) (p : PState) : (s.launch steps p).onEnd = p := rfl
@[simp] theorem State.launch_build (steps : List MicroStep) (p : PState) : (s.launch steps p).build = s.build := rfl
@[simp] theorem State.launch_host (steps : List MicroStep) (p : PState) : (s.launch steps p).host = s.host := rfl
@[simp] theorem State.launch_inputs (steps : List MicroStep) (p : PState) : (s.launch steps p).inputs = s.inputs := rfl
@[simp] theorem State.launch_tick (steps : List MicroStep) (p : PState) : (s.launch steps p).tick = s.tick := rfl
@[simp] theorem State.launch_trace (steps : List MicroStep) (p : PState) : (s.launch steps p).trace = s.trace := rfl
@[simp] theorem State.launch_rx (steps : List MicroStep) (p : PState) : (s.launch steps p).rx = s.rx := rfl
@[simp] theorem State.launch_reads (steps : List MicroStep) (p : PState) : (s.launch steps p).reads = s.reads := rfl

/-! ### State.finish -/

@[simp] theorem State.finish_fb : s.finish.fb = s.fb := rfl
@[simp] theorem State.finish_bg : s.finish.bg = s.bg := rfl
@[simp] theorem State.finish_pstate : s.finish.pstate = s.onEnd := rfl
@[simp] theorem State.finish_run : s.finish.run = false := rfl
@[simp] theorem State.finish_err : s.finish.err = .noError := rfl
@[simp] theorem State.finish_result : s.finish.result = s.result := rfl
@[simp] theorem State.finish_dc : s.finish.dc = s.dc := rfl
@[simp] theorem State.finish_rst : s.finish.rst = s.rst := rfl
@[simp] theorem State.finish_rem : s.finish.rem = s.rem := rfl
@[simp] theorem State.finish_onEnd : s.finish.onEnd = s.onEnd := rfl
@[simp] theorem State.finish_build : s.finish.build = s.build := rfl
@[simp] theorem State.finish_host : s.finish.host = s.host := rfl
@[simp] theorem State.finish_inputs : s.finish.inputs = s.inputs := rfl
@[simp] theorem State.finish_tick : s.finish.tick = s.tick := rfl
@[simp] theorem State.finish_trace : s.finish.trace = s.trace := rfl
@[simp] theorem State.finish_rx : s.finish.rx = s.rx := rfl
@[simp] theorem State.finish_reads : s.finish.reads = s.reads := rfl

/-! ### State.raise -/

@[simp] theorem State.raise_fb (e : Err) : (s.raise e).fb = s.fb := rfl
@[simp] theorem State.raise_bg (e : Err) : (s.raise e).bg = s.bg := rfl
@[simp] theorem State.raise_pstate (e : Err) : (s.raise e).pstate = if e.fromMicroStep then .uninitialized else s.pstate := rfl
@[simp] theorem State.raise_run (e : Err) : (s.raise e).run = false := rfl
@[simp] theorem State.raise_err (e : Err) : (s.raise e).err = e := rfl
@[simp] theorem State.raise_result (e : Err) : (s.raise e).result = s.result := rfl
@[simp] theorem State.raise_dc (e : Err) : (s.raise e).dc = s.dc := rfl
@[simp] theorem State.raise_rst (e : Err) : (s.raise e).rst = s.rst := rfl
@[simp] theorem State.raise_rem (e : Err) : (s.raise e).rem = [] := rfl
@[simp] theorem State.raise_onEnd (e : Err) : (s.raise e).onEnd = s.onEnd := rfl
@[simp] theorem State.raise_build (e : Err) : (s.raise e).build = s.build := rfl
@[simp] theorem State.raise_host (e : Err) : (s.raise e).host = s.host := rfl
@[simp] theorem State.raise_inputs (e : Err) : (s.raise e).inputs = s.inputs := rfl
@[simp] theorem State.raise_tick (e : Err) : (s.raise e).tick = s.tick := rfl
@[simp] theorem State.raise_trace (e : Err) : (s.raise e).trace = s.trace := rfl
@[simp] theorem State.raise_rx (e : Err) : (s.raise e).rx = s.rx := rfl
@[simp] theorem State.raise_reads (e : Err) : (s.raise e).reads = s.reads := rfl

/-! ### State.blockReset -/

@[simp] theorem State.blockReset_fb : s.blockReset.fb = [] := rfl
@[simp] theorem State.blockReset_bg : s.blockReset.bg = .white := rfl
@[simp] theorem State.blockReset_pstate : s.blockReset.pstate = .uninitialized := rfl
@[simp] theorem State.blockReset_run : s.blockReset.run = false := rfl
@[simp] theorem State.blockReset_err : s.blockReset.err = .noError := rfl
@[simp] theorem State.blockReset_result : s.blockReset.result = 0#32 := rfl
@[simp] theorem State.blockReset_dc : s.blockReset.dc = s.input.dcAfterReset := rfl
@[simp] theorem State.blockReset_rst : s.blockReset.rst = s.input.rstAfterReset := rfl
@[simp] theorem State.blockReset_rem : s.blockReset.rem = [] := rfl
@[simp] theorem State.blockReset_onEnd : s.blockReset.onEnd = .uninitialized := rfl
@[simp] theorem State.blockReset_build : s.blockReset.build = s.build := rfl
@[simp] theorem State.blockReset_host : s.blockReset.host = s.host := rfl
@[simp] theorem State.blockReset_inputs : s.blockReset.inputs = s.inputs := rfl
@[simp] theorem State.blockReset_tick : s.blockReset.tick = s.tick := rfl
@[simp] theorem State.blockReset_trace : s.blockReset.trace = s.trace := rfl
@[simp] theorem State.blockReset_rx : s.blockReset.rx = s.rx := rfl
@[simp] theorem State.blockReset_reads : s.blockReset.reads = s.reads := rfl

/-! ### The draw of a step -/

/-- A change of anything but the draws and their count leaves the draw. -/
theorem State.input_congr {s t : State} (hi : t.inputs = s.inputs) (ht : t.tick = s.tick) : t.input = s.input := by
  unfold State.input; rw [hi, ht]

theorem State.input_cons {s : State} {e : EnvIn} {es : List EnvIn} (h : s.inputs = e :: es) : s.input = e := by
  unfold State.input; rw [h]

end Sys2Proof.Machine
end

