-- ==== Sys2Proof/Laws/Ops.lean ====
section
/-! SUPPORT. For each shared operation one lemma that says everything it can do; a step by cases. -/

namespace Sys2Proof.Machine

/-! ### Outcomes -/

/-- Everything `mapNext` can answer a next state for. -/
theorem mapNext_next {f : State → State} {o : Host.Outcome State Fault Refusal} {t : State} :
    mapNext f o = .next t ↔ ∃ s, o = .next s ∧ t = f s := by
  cases o with
  | next s => simp [mapNext, eq_comm]
  | fault r => simp [mapNext]
  | refused r => simp [mapNext]

theorem mapNext_fault {f : State → State} {o : Host.Outcome State Fault Refusal} {r : Fault} :
    mapNext f o = .fault r ↔ o = .fault r := by cases o <;> simp [mapNext]

/-! ### The end of a micro-step -/

/-- `settle` ends the operation if its last micro-step has run, else it does nothing. -/
theorem State.settle_cases (s : State) :
    (s.run = true ∧ s.rem = [] ∧ s.settle = s.finish) ∨ (¬ (s.run = true ∧ s.rem = []) ∧ s.settle = s) := by
  unfold State.settle
  by_cases h : s.run = true ∧ s.rem = []
  · left; simp [h.1, h.2]
  · right; exact ⟨h, by simp only [Bool.and_eq_true, List.isEmpty_iff, if_neg h]⟩

theorem State.settle_of_not_run {s : State} (h : s.run = false) : s.settle = s := by simp [State.settle, h]

/-! ### Micro-steps -/

/-- A transfer succeeds with all of its bytes received, or fails with some of them and aborts with BusError. -/
theorem State.busWrite_cases (bytes : List Byte) (s : State) :
    (s.input.xferOk = true ∧ s.busWrite bytes = (s.receive bytes).emit (.write bytes)) ∨
    (s.input.xferOk = false ∧
      s.busWrite bytes = ((s.receive (bytes.take s.input.delivered)).emit (.writeFail bytes)).raise .busError) := by
  unfold State.busWrite
  cases h : s.input.xferOk <;> simp

/-- A wait returns, gives up, or has no step. -/
theorem State.awaitIdle_cases (s : State) :
    (s.input.busy = readyLevel s.build ∧ s.awaitIdle = (s.popRem.emit .idle).settle) ∨
    (s.input.busy ≠ readyLevel s.build ∧ s.build.waitTimeoutMs.isSome = true ∧ s.input.timeout = true ∧
      s.awaitIdle = (s.emit .timedOut).raise .timeout) ∨
    (s.input.busy ≠ readyLevel s.build ∧ ¬ (s.build.waitTimeoutMs.isSome = true ∧ s.input.timeout = true) ∧
      s.awaitIdle = s) := by
  unfold State.awaitIdle
  by_cases h : s.input.busy = readyLevel s.build
  · left; exact ⟨h, if_pos h⟩
  · right
    by_cases h2 : s.build.waitTimeoutMs.isSome = true ∧ s.input.timeout = true
    · left; exact ⟨h, h2.1, h2.2, by simp [h, h2.1, h2.2]⟩
    · right; exact ⟨h, h2, by simp only [Bool.and_eq_true, if_neg h, if_neg h2]⟩

/-! ### The acceptance checks -/

/-- The lifecycle check lets an operation go on in Ready and ends it with StateError elsewhere. -/
theorem State.ifReady_cases (s go : State) :
    (s.pstate = .ready ∧ s.ifReady go = go) ∨ (s.pstate ≠ .ready ∧ s.ifReady go = s.raise .stateError) := by
  unfold State.ifReady; split <;> simp_all

/-- The length check lets an operation go on with the length of the frame and ends it with SizeMismatch else. -/
theorem State.ifFrameLen_cases (s : State) (len : Nat) (go : State) :
    (len = fbLen ∧ s.ifFrameLen len go = go) ∨ (len ≠ fbLen ∧ s.ifFrameLen len go = s.raise .sizeMismatch) := by
  unfold State.ifFrameLen; split <;> simp_all

/-! ### The agents -/

/-- Everything PSQ can do. -/
theorem psqStep_cases (s : State) :
    (s.rem = [] ∧ psqStep s = .next s.finish) ∨
    (∃ m r, s.rem = .setDC m :: r ∧ psqStep s = .next (s.popRem.driveDc m).settle) ∨
    (∃ l r, s.rem = .setRst l :: r ∧ psqStep s = .next (s.popRem.driveRst l).settle) ∨
    (∃ n r, s.rem = .delay n :: r ∧ psqStep s = .next (s.popRem.waitMs n).settle) ∨
    (∃ b r, s.rem = .busWrite b :: r ∧ psqStep s = transferStep b s.popRem) ∨
    (∃ r, s.rem = .waitIdle :: r ∧ psqStep s = .next s.awaitIdle) := by
  unfold psqStep
  cases h : s.rem with
  | nil => simp
  | cons m r => cases m <;> simp

/-- Everything a transfer can do: in data mode it sends its bytes, in command mode it runs a panel opcode or stops. -/
theorem transferStep_cases (bytes : List Byte) (s : State) :
    (s.dc = .data ∧ transferStep bytes s = .next (s.busWrite bytes).settle) ∨
    (∃ i, s.dc = .command ∧ opcodeOf bytes = .instr i ∧ transferStep bytes s = exec i s) ∨
    (∃ r, s.dc = .command ∧ opcodeOf bytes = .reject r ∧ transferStep bytes s = .fault .notPanelOpcode) := by
  unfold transferStep
  cases h : s.dc with
  | data => simp
  | command => cases h2 : opcodeOf bytes <;> simp

/-- Everything a host access can do. -/
theorem hostStep_cases (a : HostAct) (s : State) :
    (∃ r, hostStep a s = .refused r) ∨
    (∃ n off, hostStep a s = .next { s with reads := s.reads ++ [(n, off, s.hostRegRead off)] }) ∨
    (∃ n w, a = .write n 0 4 w ∧ hostStep a s = acceptWord w s) ∨
    hostStep a s = .next s ∨
    hostStep a s = .next s.blockReset := by
  cases a with
  | blockReset => simp [hostStep]
  | read n off width =>
    simp only [hostStep]
    cases accessRefusal off width with
    | some r => exact .inl ⟨r, rfl⟩
    | none => exact .inr (.inl ⟨n, off, rfl⟩)
  | write n off width w =>
    simp only [hostStep]
    by_cases h0 : off = 0 ∧ width = 4
    · obtain ⟨rfl, rfl⟩ := h0
      exact .inr (.inr (.inl ⟨n, w, rfl, rfl⟩))
    · cases hr : accessRefusal off width with
      | some r => exact .inl ⟨r, rfl⟩
      | none =>
        have : off ≠ 0 := by
          rintro rfl
          simp [accessRefusal] at hr
          exact h0 ⟨rfl, hr⟩
        right; right; right; left
        simp [this]

/-- Everything acceptance of a command word can do. -/
theorem acceptWord_cases (w : Word) (s : State) :
    (∃ i, decodeHost w = .instr i ∧ acceptWord w s = exec i s) ∨
    (∃ r, decodeHost w = .reject r ∧ acceptWord w s = .next (s.raise .illegalCommand)) := by
  unfold acceptWord
  cases h : decodeHost w <;> simp

/-- An access of the agent `n` waits if `n` is one of `held`. -/
theorem HostAct.waits_of_held {held : List Nat} {a : HostAct} {n : Nat} (ha : a.agent = some n) (hn : n ∈ held) :
    a.waits held = true := by simp [HostAct.waits, ha, hn]

/-- A CMD write waits. -/
theorem HostAct.waits_of_command {held : List Nat} {a : HostAct} (ha : a.isCommand = true) : a.waits held = true := by
  simp [HostAct.waits, ha]

/-- What waits has an agent: block reset never does. -/
theorem HostAct.agent_of_waits {held : List Nat} {a : HostAct} (h : a.waits held = true) : ∃ n, a.agent = some n := by
  cases a with
  | read n _ _ => exact ⟨n, rfl⟩
  | write n _ _ _ => exact ⟨n, rfl⟩
  | blockReset => simp [HostAct.waits, HostAct.isCommand, HostAct.agent] at h

/-- The access that does not wait is no CMD write, no access of an agent in `held`, and passes no access of its own
agent; what remains is the list without it. -/
theorem firstUnheld_some {held : List Nat} {l : List HostAct} {a : HostAct} {r : List HostAct}
    (h : firstUnheld held l = some (a, r)) :
    a.isCommand = false ∧ (∀ n, a.agent = some n → n ∉ held) ∧
    ∃ before after, l = before ++ a :: after ∧ r = before ++ after ∧ ∀ c ∈ before, c.agent ≠ a.agent := by
  induction l generalizing held r with
  | nil => cases h
  | cons b l ih =>
    simp only [firstUnheld] at h
    split at h
    · next hb =>
      obtain ⟨p, hp, he⟩ := Option.map_eq_some_iff.1 h
      cases he
      obtain ⟨hc, hn, x, y, rfl, hr, hx⟩ := ih hp
      obtain ⟨m, hm⟩ := HostAct.agent_of_waits hb
      refine ⟨hc, fun n ha hh => hn n ha (by simp [hh]), b :: x, y, rfl, by rw [hr]; rfl, ?_⟩
      intro c hcm he
      rcases List.mem_cons.1 hcm with rfl | hcm
      · exact hn m (he ▸ hm) (by simp [hm])
      · exact hx c hcm he
    · next hb =>
      cases h
      simp only [HostAct.waits, Bool.or_eq_true, not_or] at hb
      refine ⟨by simpa using hb.1, ?_, [], l, rfl, rfl, by simp⟩
      intro n ha hh
      exact hb.2 (by simp [ha, hh])

/-- Nothing can be made of a list in which every access is a CMD write or an access of an agent in `held`. -/
theorem firstUnheld_none {held : List Nat} {l : List HostAct}
    (h : ∀ a ∈ l, a.isCommand = true ∨ ∃ n ∈ held, a.agent = some n) : firstUnheld held l = none := by
  induction l generalizing held with
  | nil => rfl
  | cons b l ih =>
    have hb : b.waits held = true := by
      rcases h b (by simp) with hb | ⟨n, hn, hb⟩
      · exact HostAct.waits_of_command hb
      · exact HostAct.waits_of_held hb hn
    rw [firstUnheld, if_pos hb, ih, Option.map_none]
    intro a ha
    rcases h a (List.mem_cons_of_mem _ ha) with h1 | ⟨n, hn, h1⟩
    · exact .inl h1
    · exact .inr ⟨n, by simp [hn], h1⟩

/-- Which agent moves: PSQ, the host (never with a command while an operation runs), or nobody. -/
theorem agentStep_cases (s : State) :
    (s.run = true ∧ (s.hostMove = none ∨ s.input.hostFirst = false) ∧ agentStep s = psqStep s) ∨
    (∃ a r, s.hostMove = some (a, r) ∧ (s.run = false ∨ s.input.hostFirst = true) ∧
      (s.run = true → a.isCommand = false) ∧ (s.run = false → s.host = a :: r) ∧
      agentStep s = hostStep a { s with host := r }) ∨
    (s.run = false ∧ s.host = [] ∧ agentStep s = .next s) := by
  unfold agentStep
  cases hr : s.run with
  | false =>
    cases hh : s.host with
    | nil => simp [State.hostMove, hr, hh]
    | cons a r => right; left; exact ⟨a, r, by simp [State.hostMove, hr, hh]⟩
  | true =>
    cases hm : s.hostMove with
    | none => simp
    | some p =>
      cases hf : s.input.hostFirst with
      | false => left; simp
      | true =>
        right; left
        have hu : firstUnheld [] s.host = some (p.1, p.2) := by simpa [State.hostMove, hr] using hm
        exact ⟨p.1, p.2, rfl, by simp, fun _ => (firstUnheld_some hu).1, by simp, by simp⟩

/-- A step that goes on is an agent's move with the draw used up. -/
theorem step_next {s t : State} : step s = .next t ↔ ∃ u, agentStep s = .next u ∧ t = u.advance := mapNext_next

end Sys2Proof.Machine
end

