-- ==== Sys2Proof/Laws/PerInstr.lean ====
section
/-! SUPPORT. Statements made of every instruction, one lemma per constructor. `EncodeFits`: an instruction's bits are a
number of as many bits as its table row has (spec/30_encoding.md R80, R95). -/

namespace Sys2Proof.Laws.EncodeFits

def Statement (i : Instr) : Prop := (encode i).2 < 2 ^ (encode i).1

theorem bitmask (c : Color) (pos : Nat) : Statement (.bitmask c pos) := BitVec.isLt _
theorem decode (code : BitVec 2) : Statement (.decode code) := BitVec.isLt _
theorem defbyte : Statement (.defbyte) := BitVec.isLt _
theorem fbinit : Statement (.fbinit) := BitVec.isLt _
theorem setpx (x y : Int) (c : Color) : Statement (.setpx x y c) := BitVec.isLt _
theorem getpx (x y : Int) : Statement (.getpx x y) := BitVec.isLt _
theorem fbrd (addr : Nat) : Statement (.fbrd addr) := BitVec.isLt _
theorem init : Statement (.init) := BitVec.isLt _
theorem wake : Statement (.wake) := BitVec.isLt _
theorem sleep : Statement (.sleep) := BitVec.isLt _
theorem update (len : Nat) : Statement (.update len) := BitVec.isLt _
theorem display : Statement (.display) := BitVec.isLt _
theorem upddisp (len : Nat) : Statement (.upddisp len) := BitVec.isLt _
theorem clear : Statement (.clear) := BitVec.isLt _
theorem getbg : Statement (.getbg) := BitVec.isLt _
theorem setbg (c : Color) : Statement (.setbg c) := BitVec.isLt _
theorem setlut (imm8 : Nat) : Statement (.setlut imm8) := BitVec.isLt _
theorem pPanelSetting : Statement (.pPanelSetting) := BitVec.isLt _
theorem pPowerSetting : Statement (.pPowerSetting) := BitVec.isLt _
theorem pPowerOff : Statement (.pPowerOff) := BitVec.isLt _
theorem pPowerOn : Statement (.pPowerOn) := BitVec.isLt _
theorem pBoosterSoftStart : Statement (.pBoosterSoftStart) := BitVec.isLt _
theorem pDeepSleep : Statement (.pDeepSleep) := BitVec.isLt _
theorem pDataStart : Statement (.pDataStart) := BitVec.isLt _
theorem pDataStop : Statement (.pDataStop) := BitVec.isLt _
theorem pDisplayRefresh : Statement (.pDisplayRefresh) := BitVec.isLt _
theorem pPllControl : Statement (.pPllControl) := BitVec.isLt _
theorem pVcomDataInterval : Statement (.pVcomDataInterval) := BitVec.isLt _
theorem pSpiFlashControl : Statement (.pSpiFlashControl) := BitVec.isLt _
theorem pPowerSaving : Statement (.pPowerSaving) := BitVec.isLt _
theorem pVendor4D : Statement (.pVendor4D) := BitVec.isLt _
theorem pVendorE9 : Statement (.pVendorE9) := BitVec.isLt _

end Sys2Proof.Laws.EncodeFits
end

