-- ==== Sys2Proof/Tests/Slice0.lean ====
section
/-! SUPPORT. The model's own tests: decoding of words written out from the spec, ill-formed terms refused, single steps
with results taken from spec/95_test_vectors.md, and for each statement with hypotheses a witness that meets them. -/

namespace Sys2Proof.Tests

open Sys2Proof Sys2Proof.Machine Sys2Proof.Safety

/-! ### Decoding (spec/30_encoding.md R84, R95; the words stand in spec/95_test_vectors.md) -/

theorem test_decode_bitmask : decodeTableWord 32 0x07000FFF = some (.bitmask .yellow 4095) := by decide -- V7
theorem test_decode_decode : decodeTableWord 32 0x0A000000 = some (.decode 2) := by decide -- V8
theorem test_decode_defbyte : decodeTableWord 32 0x0C000000 = some (.defbyte) := by decide -- V9
theorem test_decode_fbinit : decodeTableWord 32 0x20000000 = some (.fbinit) := by decide -- V34
theorem test_decode_setpx : decodeTableWord 32 0x25FFD005 = some (.setpx 5 (-3) .white) := by decide -- V15
theorem test_decode_getpx : decodeTableWord 32 0x28000FFF = some (.getpx (-1) 0) := by decide -- V31
theorem test_decode_fbrd : decodeTableWord 32 0x2C0176FF = some (.fbrd 95999) := by decide -- V20
theorem test_decode_init : decodeTableWord 32 0x40000000 = some (.init) := by decide -- P2
theorem test_decode_wake : decodeTableWord 32 0x44000000 = some (.wake) := by decide -- P2
theorem test_decode_sleep : decodeTableWord 32 0x48000000 = some (.sleep) := by decide -- V55
theorem test_decode_update : decodeTableWord 32 0x4C017700 = some (.update 96000) := by decide -- V53
theorem test_decode_display : decodeTableWord 32 0x50000000 = some (.display) := by decide -- V52
theorem test_decode_upddisp : decodeTableWord 32 0x540FFFFF = some (.upddisp 1048575) := by decide -- V60
theorem test_decode_clear : decodeTableWord 32 0x58000000 = some (.clear) := by decide -- V50
theorem test_decode_getbg : decodeTableWord 32 0x5C000000 = some (.getbg) := by decide -- V63
theorem test_decode_setbg : decodeTableWord 32 0x62000000 = some (.setbg .red) := by decide -- P2
theorem test_decode_setlut : decodeTableWord 32 0x640000FF = some (.setlut 255) := by decide -- V61
theorem test_decode_pPanelSetting : decodeTableWord 8 0x00 = some .pPanelSetting := by decide
theorem test_decode_pPowerSetting : decodeTableWord 8 0x01 = some .pPowerSetting := by decide
theorem test_decode_pPowerOff : decodeTableWord 8 0x02 = some .pPowerOff := by decide
theorem test_decode_pPowerOn : decodeTableWord 8 0x04 = some .pPowerOn := by decide
theorem test_decode_pBoosterSoftStart : decodeTableWord 8 0x06 = some .pBoosterSoftStart := by decide
theorem test_decode_pDeepSleep : decodeTableWord 8 0x07 = some .pDeepSleep := by decide
theorem test_decode_pDataStart : decodeTableWord 8 0x10 = some .pDataStart := by decide
theorem test_decode_pDataStop : decodeTableWord 8 0x11 = some .pDataStop := by decide
theorem test_decode_pDisplayRefresh : decodeTableWord 8 0x12 = some .pDisplayRefresh := by decide
theorem test_decode_pPllControl : decodeTableWord 8 0x30 = some .pPllControl := by decide
theorem test_decode_pVcomDataInterval : decodeTableWord 8 0x50 = some .pVcomDataInterval := by decide
theorem test_decode_pSpiFlashControl : decodeTableWord 8 0x65 = some .pSpiFlashControl := by decide
theorem test_decode_pPowerSaving : decodeTableWord 8 0xE3 = some .pPowerSaving := by decide
theorem test_decode_pVendor4D : decodeTableWord 8 0x4D = some .pVendor4D := by decide
theorem test_decode_pVendorE9 : decodeTableWord 8 0xE9 = some .pVendorE9 := by decide

-- V10, V11, V32, V35, V62, V66: illegal words, each refused by the name of its case of R85.
theorem test_illegal_bitmask_zero_bit : decodeHost 0x04001000#32 = .reject .zeroBitSet := by decide
theorem test_illegal_decode_pos : decodeHost 0x08000001#32 = .reject .posNotZero := by decide
theorem test_illegal_getpx_color : decodeHost 0x29000000#32 = .reject .getpxColor := by decide
theorem test_illegal_fbrd_bit17 : decodeHost 0x2C020000#32 = .reject .zeroBitSet := by decide
theorem test_illegal_setlut_zero_bit : decodeHost 0x64000100#32 = .reject .zeroBitSet := by decide
theorem test_illegal_unassigned :
    [0x00000000#32, 0xFFFFFFFF#32, 0x10000000#32, 0x1C000000#32, 0x30000000#32, 0x68000000#32].map decodeHost =
      List.replicate 6 (.reject .unassignedOp) := by decide
theorem test_illegal_panel_byte : decodePanel 0x03#8 = .reject .notPanelOpcode := by decide

-- The encoder against words of the spec: V15, V16, V17, V19.
theorem test_encode_setpx_signs :
    [encode (.setpx 5 (-3) .white), encode (.setpx 2047 2047 .yellow), encode (.setpx (-2048) (-2048) .yellow),
      encode (.setpx 799 479 .yellow)] =
    [(32, 0x25FFD005), (32, 0x277FF7FF), (32, 0x27800800), (32, 0x271DF31F)] := by decide
theorem test_encode_update : encode (.update 96000) = (32, 0x4C017700) := by decide -- R88

/-! ### Ill-formed terms are refused (R82) -/

theorem test_wf_pos : Instr.wf (.bitmask .red 4096) = false ∧ Instr.wf (.bitmask .red 4095) = true := by decide
theorem test_wf_x_high : Instr.wf (.setpx 2048 0 .red) = false := by decide
theorem test_wf_x_low : Instr.wf (.setpx (-2049) 0 .red) = false := by decide
theorem test_wf_y_high : Instr.wf (.getpx 0 2048) = false := by decide
theorem test_wf_y_low : Instr.wf (.getpx 0 (-2049)) = false ∧ Instr.wf (.getpx (-2048) 2047) = true := by decide
theorem test_wf_addr : Instr.wf (.fbrd 131072) = false := by decide
theorem test_wf_len : Instr.wf (.update 1048576) = false ∧ Instr.wf (.upddisp 1048576) = false := by decide
theorem test_wf_imm : Instr.wf (.setlut 256) = false := by decide
-- R171: an empty payload, an action opcode, a missing opcode; and the table of spec/95 section 3 passes.
theorem test_initSeq_checks :
    initSeqOk [(0x4D#8, [])] = false ∧
    initSeqOk [(0x4D#8, [1#8]), (0x00#8, [1#8]), (0x50#8, [1#8]), (0x65#8, [1#8]), (0xE3#8, [1#8]), (0x30#8, [1#8]),
      (0xE9#8, [1#8]), (0x12#8, [1#8])] = false ∧
    initSeqOk [(0x4D#8, [1#8]), (0x00#8, [1#8]), (0x50#8, [1#8]), (0x65#8, [1#8]), (0xE3#8, [1#8]), (0x30#8, [1#8])] =
      false ∧
    initSeqOk [(0x4D#8, [0xD0#8]), (0x00#8, [0xD1#8, 0xD2#8]), (0x50#8, [0xD3#8]), (0x65#8, [0xD4#8]),
      (0xE3#8, [0xD5#8]), (0x30#8, [0xD6#8]), (0xE9#8, [0xD7#8])] = true := by decide

/-! ### Single steps -/

/-- The test-only table of spec/95_test_vectors.md section 3. -/
def testTable : InitSeq where
  pairs := [(0x4D#8, [0xD0#8]), (0x00#8, [0xD1#8, 0xD2#8]), (0x50#8, [0xD3#8]), (0x65#8, [0xD4#8]), (0xE3#8, [0xD5#8]),
    (0x30#8, [0xD6#8]), (0xE9#8, [0xD7#8])]
  ok := by decide

/-- A build for tests; MAX_CHUNK is 2. -/
def testBuild (d : ShiftDir) : Build where
  shiftDir := d
  busyIsLow := true
  maxChunkPred := 1
  rstInitialDelayMs := 10
  rstHoldMs := 5
  initSeq := testTable
  dcCmdLevel := false
  waitTimeoutMs := none

/-- An environment that grants everything, with the host going first. -/
def good : EnvIn := ⟨true, true, 0, false, true, [], .data, true⟩

/-- An environment in which the busy input is not ready and a transfer fails after one byte, with PSQ going first. -/
def bad : EnvIn := ⟨false, false, 1, true, false, [], .data, true⟩

/-- The reset state of a test build. -/
def s0 (d : ShiftDir) : State := { State.reset with build := testBuild d, inputs := List.replicate 4 good }

/-- The same in lifecycle state Ready. -/
def sReady : State := { s0 .left with pstate := .ready }

/-- An operation running, with micro-steps `r` left. -/
def sRun (r : List MicroStep) (e : EnvIn) : State :=
  { sReady with run := true, onEnd := .ready, rem := r, inputs := List.replicate 4 e }

/-- What is looked at in a next state. -/
def look (f : State → α) : Host.Outcome State Fault Refusal → Option α
  | .next s => some (f s)
  | .fault _ => none
  | .refused _ => none

-- V3, V5, V7: RESULT of BITMASK for both directions.
theorem test_bitmask_red_1 :
    look State.result (exec (.bitmask .red 1) (s0 .left)) = some 0xF308#32 ∧
    look State.result (exec (.bitmask .red 1) (s0 .right)) = some 0xCF20#32 := by decide
theorem test_bitmask_yellow_4095 :
    look State.result (exec (.bitmask .yellow 4095) (s0 .left)) = some 0x3FC0#32 ∧
    look State.result (exec (.bitmask .yellow 4095) (s0 .right)) = some 0xFC03#32 := by decide
-- V8, V9.
theorem test_decode_value : look State.result (exec (.decode 2#2) (s0 .left)) = some 2#32 := by decide
theorem test_defbyte_ignores_bg :
    look State.result (exec .defbyte { s0 .left with bg := .red }) = some 0x55#32 := by decide
-- V34: FBINIT after a pixel was drawn.
theorem test_fbinit_restores :
    look (fun s => s.fb.read 0) (exec .fbinit { s0 .left with fb := [(0, 0x54#8)] }) = some 0x55#8 := by decide
-- V22, V19: the byte written, both directions.
theorem test_setpx_401_239 :
    look State.fb (exec (.setpx 401 239 .red) (s0 .left)) = some [(47900, 0x59#8)] ∧
    look State.fb (exec (.setpx 401 239 .red) (s0 .right)) = some [(47900, 0x65#8)] := by decide
-- V12, V14: out of range on two sides, no effect and no error.
theorem test_setpx_out :
    look (fun s => (s.fb, s.err)) (exec (.setpx 800 0 .black) (s0 .left)) = some ([], .noError) ∧
    look (fun s => (s.fb, s.err)) (exec (.setpx (-1) 0 .red) (s0 .left)) = some ([], .noError) := by decide
-- V27: the four pixels of FB[0] = 0xC9; V31.
theorem test_getpx_fields :
    [0, 1, 2, 3].map (fun x => look State.result (exec (.getpx x 0) { s0 .left with fb := [(0, 0xC9#8)] })) =
      [some 1#32, some 2#32, some 0#32, some 3#32] := by decide
theorem test_getpx_negative : look State.err (exec (.getpx (-1) 0) (s0 .left)) = some .rangeError := by decide
-- V20, V28.
theorem test_fbrd_top : look State.result (exec (.fbrd 95999) (s0 .left)) = some 0x55#32 := by decide
theorem test_fbrd_out :
    look (fun s => (s.err, s.result)) (exec (.fbrd 96000) (s0 .left)) = some (.rangeError, 0#32) := by decide
-- T_INIT of spec/95 section 3, its beginning and its end.
theorem test_init_steps :
    look (fun s => s.rem.take 11) (exec .init (s0 .left)) =
      some [.setRst true, .delay 10, .setRst false, .delay 5, .setRst true, .delay 200, .waitIdle, .setDC .command,
        .busWrite [0x4D#8], .setDC .data, .busWrite [0xD0#8]] ∧
    look (fun s => (s.rem.length, s.rem.getLast?, s.pstate)) (exec .init sReady) =
      some (38, some .waitIdle, .uninitialized) := by decide
theorem test_wake_as_init :
    look State.rem (exec .wake (s0 .left)) = look State.rem (exec .init (s0 .left)) := by decide
-- V55, V56.
theorem test_sleep_steps :
    look State.rem (exec .sleep sReady) = some [.waitIdle, .setDC .command, .busWrite [0x02#8], .waitIdle,
      .setDC .command, .busWrite [0x07#8]] := by decide
theorem test_sleep_sleeping :
    look (fun s => (s.err, s.pstate, s.rem)) (exec .sleep { sReady with pstate := .sleeping }) =
      some (.stateError, .sleeping, []) := by decide
-- V58, V59.
theorem test_update_len : look State.err (exec (.update 96001) sReady) = some .sizeMismatch := by decide
theorem test_update_state_first :
    look State.err (exec (.update 0) { sReady with pstate := .sleeping }) = some .stateError := by decide
-- V52, V60, P2 step 1.
theorem test_display_steps :
    look State.rem (exec .display sReady) = some [.setDC .command, .busWrite [0x12#8], .waitIdle] := by decide
theorem test_upddisp_len : look State.err (exec (.upddisp 1048575) sReady) = some .sizeMismatch := by decide
theorem test_clear_state : look State.err (exec .clear (s0 .left)) = some .stateError := by decide
-- V63, P2 step 3, V61.
theorem test_getbg : look State.result (exec .getbg (s0 .left)) = some 1#32 := by decide
theorem test_setbg : look State.bg (exec (.setbg .red) (s0 .left)) = some .red := by decide
theorem test_setlut : look State.err (exec (.setlut 0) sReady) = some .unsupported := by decide
-- V41: five bytes with MAX_CHUNK 2.
theorem test_send_data_greedy :
    sendData 2 [] [1#8, 2#8, 3#8, 4#8, 5#8] =
      [.setDC .data, .busWrite [1#8, 2#8], .busWrite [3#8, 4#8], .busWrite [5#8]] := by decide
-- V45, V46 (through the wait), V65 (the refresh transfer fails).
theorem test_wait_ready :
    look (fun s => (s.trace, s.rem)) (step (sRun [.waitIdle, .delay 1] good)) = some ([.idle], [.delay 1]) := by decide
theorem test_wait_stuck :
    look (fun s => (s.trace, s.rem, s.run)) (step (sRun [.waitIdle] bad)) = some ([], [.waitIdle], true) := by decide
theorem test_display_transfer_fails :
    look (fun s => (s.trace, s.err, s.pstate, s.rem))
      (step { sRun [.busWrite [0x12#8], .waitIdle] bad with dc := .command }) =
      some ([.writeFail [0x12#8]], .busError, .uninitialized, []) := by decide
-- The last micro-step ends the operation (R170).
theorem test_operation_ends :
    look (fun s => (s.run, s.pstate)) (step { sRun [.waitIdle] good with onEnd := .sleeping }) =
      some (false, .sleeping) := by decide
-- R23: STATUS with RUN 1, PSTATE Ready; BusError, Uninitialized.
theorem test_status :
    (sRun [] good).statusReg = 0x3#32 ∧ ({ s0 .left with err := .busError } : State).statusReg = 0x50#32 := by decide
-- R27: CONFIG of a Right build with BUSY_IS_LOW.
theorem test_config : (s0 .right).configReg = 0x3#32 := by decide
-- One panel opcode byte of each kind runs where withFetchWord puts it.
theorem test_fetch_opcode :
    look State.trace (step ((s0 .left).withFetchWord 8 0x04)) = some [.write [0x04#8]] := by decide
theorem test_fetch_command :
    look State.result (step ((s0 .left).withFetchWord 32 0x5C000000)) = some 1#32 := by decide

/-! ### Witnesses: each hypothesis of a statement is met -/

theorem witness_DecodeOfEncode : Instr.wf (.setpx (-2048) 2047 .yellow) = true ∧ Instr.wf .pVendorE9 = true := by decide
theorem witness_EncodeOfDecode : decodeHost 0x27800800#32 = .instr (.setpx (-2048) (-2048) .yellow) := by decide
theorem witness_RowsOfTheOperationMapDecode :
    ∃ r ∈ hostRows, r.selects 0x640000FF#32 = true :=
  ⟨⟨"SETLUT", 0xFFFFFF00#32, 0x64000000#32⟩, by decide, by decide⟩
theorem witness_IllegalWords : ∃ s : State, IllegalWord 0x04001000#32 ∧ s.run = false ∧ s.rem = [] :=
  ⟨s0 .left, by unfold IllegalWord; decide, rfl, rfl⟩
theorem witness_FieldMasks : (3 < 4) ∧ (0 < 4) ∧ 3 ≠ 0 ∧ fieldmask .right 3 = fieldmask .left (3 - 3) := by decide
theorem witness_Apply_other_field : ∃ q, q < 4 ∧ q ≠ 4095 % 4 := ⟨0, by decide, by decide⟩
theorem witness_PixelAddresses : inRange 799 479 = true ∧ inRange 0 0 = true ∧ inRange 800 0 = false ∧
    inRange 0 480 = false ∧ inRange (-1) 0 = false ∧ inRange 0 (-1) = false := by decide
theorem witness_PixelAddresses_same :
    byteIndex 799 479 = 95999 ∧ byteIndex 799 479 = byteIndex 799 479 ∧ (799 : Int) % 4 = 799 % 4 := by decide
theorem witness_FbinitFills : inRange 799 479 = true := by decide
theorem witness_SetpxWritesOneField : inRange 799 479 = true ∧ (s0 .left).fb.wf = true ∧ 0 ≠ byteIndex 799 479 := by
  decide
theorem witness_SetpxOutOfRange : (800 : Int) < 0 ∨ (799 : Int) < 800 ∨ (0 : Int) < 0 ∨ (479 : Int) < 0 := by decide
theorem witness_SetpxOutOfRange_y : (0 : Int) < 0 ∨ (799 : Int) < 0 ∨ (480 : Int) < 0 ∨ (479 : Int) < 480 := by decide
theorem witness_SetpxThenGetpx :
    ∃ t, (s0 .left).fb.wf = true ∧ inRange 1 0 = true ∧ inRange 2 0 = true ∧
      exec (.setpx 1 0 .red) (s0 .left) = .next t := ⟨_, by decide, by decide, by decide, rfl⟩
theorem witness_Getpx : inRange 0 479 = true ∧ inRange 0 480 = false ∧ (s0 .left).rem = [] := by decide
theorem witness_Fbrd : 95999 < 96000 ∧ 96000 ≤ 96000 ∧ (s0 .left).rem = [] := by decide
theorem witness_Chunks : 1 ≤ 1 ∧ [1#8].length ≤ 1 ∧ [1#8] ≠ [] := by decide
theorem witness_EveryAllowedSplit : ∃ bytes ks, 1 ≤ 2 ∧ Splits 2 bytes ks ∧ 2 < bytes.length :=
  ⟨[1#8, 2#8, 3#8], [[1#8], [2#8, 3#8]], by decide, by unfold Splits; decide, by decide⟩
theorem psqMoves_sRun (r : List MicroStep) (e : EnvIn) : PsqMoves (sRun r e) :=
  ⟨rfl, .inl rfl⟩
theorem witness_LineMicroSteps : ∃ s : State, PsqMoves s ∧ s.rem = [.setDC .data] :=
  ⟨sRun [.setDC .data] good, psqMoves_sRun _ _, rfl⟩
theorem witness_LineMicroSteps_rst : ∃ s : State, PsqMoves s ∧ s.rem = [.setRst true, .delay 0] :=
  ⟨sRun [.setRst true, .delay 0] good, psqMoves_sRun _ _, rfl⟩
theorem witness_LineMicroSteps_delay : ∃ s : State, PsqMoves s ∧ s.rem = [.delay 0] :=
  ⟨sRun [.delay 0] good, psqMoves_sRun _ _, rfl⟩
theorem witness_DataTransfer_succeeds :
    ∃ s : State, PsqMoves s ∧ s.dc = .data ∧ s.rem = [.busWrite [1#8]] ∧ s.input.xferOk = true :=
  ⟨{ sRun [.busWrite [1#8]] good with dc := .data }, ⟨rfl, .inl rfl⟩, rfl, rfl, rfl⟩
theorem witness_DataTransfer_fails :
    ∃ s : State, PsqMoves s ∧ s.dc = .data ∧ s.rem = [.busWrite [1#8, 2#8]] ∧ s.input.xferOk = false :=
  ⟨{ sRun [.busWrite [1#8, 2#8]] bad with dc := .data }, ⟨rfl, .inl rfl⟩, rfl, rfl, rfl⟩
theorem witness_PanelOpcodes :
    (0x00#8, Instr.pPanelSetting) ∈ panelTable ∧ (0xE9#8, Instr.pVendorE9) ∈ panelTable ∧
    (sRun [] good).input.xferOk = true ∧ (sRun [] bad).input.xferOk = false := by decide
theorem witness_WaitIdle_ready : ∃ s : State, PsqMoves s ∧ s.rem = [.waitIdle] ∧ s.input.busy = s.build.busyIsLow :=
  ⟨sRun [.waitIdle] good, psqMoves_sRun _ _, rfl, rfl⟩
theorem witness_WaitIdle_timeout :
    ∃ s : State, PsqMoves s ∧ s.rem = [.waitIdle] ∧ s.input.busy ≠ s.build.busyIsLow ∧ s.build.waitTimeoutMs ≠ none ∧
      s.input.timeout = true :=
  ⟨{ sRun [.waitIdle] bad with build := { testBuild .left with waitTimeoutMs := some 30000 } },
    ⟨rfl, .inl rfl⟩, rfl, by decide, by decide, rfl⟩
theorem witness_WaitIdle_holds :
    ∃ s : State, PsqMoves s ∧ s.rem = [.waitIdle] ∧ s.input.busy ≠ s.build.busyIsLow ∧ s.build.waitTimeoutMs = none :=
  ⟨sRun [.waitIdle] bad, psqMoves_sRun _ _, rfl, by decide, rfl⟩
theorem witness_OperationEnds : (sRun [] good).run = true ∧ (sRun [] good).rem = [] ∧
    (sRun [.waitIdle] good).run = true ∧ (sRun [.waitIdle] good).rem ≠ [] := by decide
theorem witness_Ready : sReady.pstate = .ready := by decide
theorem witness_RemEmpty : (s0 .left).rem = [] := by decide
theorem witness_StateCheck : (s0 .left).rem = [] ∧ (s0 .left).pstate ≠ .ready ∧
    ({ sReady with pstate := .sleeping } : State).pstate ≠ .ready := by decide
theorem witness_NoStateError : hostMnemonic .init ≠ none ∧ ∃ t, exec .init (s0 .left) = .next t := ⟨by decide, _, rfl⟩
theorem witness_LengthCheck : sReady.rem = [] ∧ sReady.pstate = .ready ∧ 95999 ≠ 96000 ∧ 96001 ≠ 96000 := by decide
theorem witness_HostRegisters : 0 ∉ [0x04, 0x08, 0x0C, 0x10] ∧ 0x14 ∉ [0x04, 0x08, 0x0C, 0x10] := by decide
theorem witness_DcLevel : (s0 .left).dc = .command ∧ ({ s0 .left with dc := .data } : State).dc = .data := by decide
theorem witness_InitSeq :
    (0x4D#8, [0xD0#8]) ∈ (testBuild .left).initSeq.pairs ∧ 0xE9#8 ∈ [0x00#8, 0x50#8, 0x65#8, 0xE3#8, 0x30#8, 0x4D#8, 0xE9#8] :=
  by decide
theorem witness_HostAccesses : 0x10 % 4 = 0 ∧ 0x10 ≠ 0 ∧ 2 ≠ 4 ∧ 0x01 % 4 ≠ 0 := by decide
theorem inv_running : BlockInv (sRun [.waitIdle] good) := by unfold BlockInv; decide
theorem witness_CommandIsHeld :
    ∃ s t : State, s.run = true ∧
      s.host = [.write 0 0 4 0x5C000000#32, .write 1 0 4 0x0C000000#32, .read 0 4 4] ∧
      (∀ a ∈ [HostAct.write 1 0 4 0x0C000000#32, .read 0 4 4], a.isCommand = true ∨ a.agent = some 0) ∧
      step s = .next t :=
  ⟨{ sRun [.waitIdle] good with host := [.write 0 0 4 0x5C000000#32, .write 1 0 4 0x0C000000#32, .read 0 4 4] }, _,
    rfl, rfl, by decide, rfl⟩
-- R58: a read of the agent whose write is held waits; one of another agent is made.
theorem witness_CommandIsHeld_read :
    HostMoves { sRun [.waitIdle] good with host := [.write 0 0 4 0x5C000000#32, .read 0 8 4, .read 1 4 4] } (.read 1 4 4)
      [.write 0 0 4 0x5C000000#32, .read 0 8 4] := ⟨rfl, .inr rfl⟩
theorem witness_CommandIsHeld_next :
    HostAct.isCommand (.read 1 4 4) = false ∧ HostAct.agent (.read 1 4 4) ≠ some 0 ∧
    HostAct.isCommand .blockReset = false ∧ HostAct.agent .blockReset ≠ some 0 ∧
    (sRun [.waitIdle] good).input.hostFirst = true := by decide
theorem witness_BlockReset_idle : HostMoves { s0 .left with host := [.blockReset] } .blockReset [] := ⟨rfl, .inl rfl⟩
-- R236: block reset ends a stuck wait although a CMD write is held before it.
theorem witness_BlockReset_running :
    HostMoves { sRun [.waitIdle] good with host := [.write 0 0 4 0x5C000000#32, .blockReset] } .blockReset
      [.write 0 0 4 0x5C000000#32] := ⟨rfl, .inr rfl⟩
theorem witness_ResetState : 95999 < 96000 ∧ inRange 799 479 = true := by decide
theorem witness_StepRunsTheCommandWord :
    ∃ s : State, s.run = false ∧ s.host = [.write 0 0 4 0x0C000000#32] ∧ decodeHost 0x0C000000#32 = .instr .defbyte :=
  ⟨{ s0 .left with host := [.write 0 0 4 0x0C000000#32] }, rfl, rfl, by decide⟩
theorem witness_StepRunsThePanelOpcode :
    ∃ s : State, PsqMoves s ∧ s.dc = .command ∧ s.rem = [.busWrite [0x12#8], .waitIdle] ∧
      decodePanel 0x12#8 = .instr .pDisplayRefresh :=
  ⟨sRun [.busWrite [0x12#8], .waitIdle] good, psqMoves_sRun _ _, rfl, rfl, by decide⟩
theorem witness_FrameOfValueOperations :
    ∃ t, returnsValue (.getpx 0 0) = true ∧ (s0 .left).rem = [] ∧ exec (.getpx 0 0) (s0 .left) = .next t :=
  ⟨_, rfl, rfl, rfl⟩
theorem witness_FrameOfPanelOperations :
    (∃ t, exec .init (s0 .left) = .next t) ∧ (∃ t, exec .display sReady = .next t) ∧
      ∃ t, exec (.setlut 0) sReady = .next t := ⟨⟨_, rfl⟩, ⟨_, rfl⟩, ⟨_, rfl⟩⟩
theorem witness_FrameOfPanelOpcodes :
    ∃ t, (0x12#8, Instr.pDisplayRefresh) ∈ panelTable ∧ exec .pDisplayRefresh (sRun [] good) = .next t :=
  ⟨_, by decide, rfl⟩
theorem witness_StepKeepsInv : ∃ t, BlockInv (sRun [.waitIdle] good) ∧ step (sRun [.waitIdle] good) = .next t :=
  ⟨_, inv_running, rfl⟩
theorem witness_Lifecycle_init :
    ∃ s t : State, BlockInv s ∧ Accepts s .init ∧ step s = .next t ∧ t.pstate ≠ s.pstate :=
  ⟨{ sReady with host := [.write 0 0 4 0x40000000#32] }, _, by unfold BlockInv; decide,
    ⟨rfl, 0, 0x40000000#32, [], rfl, by decide⟩, rfl, by decide⟩
theorem witness_Lifecycle_ends :
    ∃ s t : State, BlockInv s ∧ s.run = true ∧ s.onEnd = .sleeping ∧ step s = .next t ∧ t.pstate ≠ s.pstate :=
  ⟨{ sRun [.busWrite [0x07#8]] good with onEnd := .sleeping }, _, by unfold BlockInv; decide, rfl, rfl, rfl, by decide⟩
theorem witness_Lifecycle_ready :
    ∃ s t : State, BlockInv s ∧ s.run = true ∧ s.onEnd = .ready ∧ step s = .next t ∧ t.pstate ≠ s.pstate :=
  ⟨{ sRun [.waitIdle] good with pstate := .uninitialized }, _, by unfold BlockInv; decide, rfl, rfl, rfl, by decide⟩
theorem witness_Lifecycle_error :
    ∃ s t : State, BlockInv s ∧ s.run = true ∧ step s = .next t ∧ t.pstate ≠ s.pstate ∧ t.err = .busError :=
  ⟨sRun [.busWrite [0x07#8], .waitIdle] bad, _, by unfold BlockInv; decide, rfl, rfl, by decide, by decide⟩
theorem witness_Lifecycle_reset :
    ∃ s t : State, BlockInv s ∧ Resets s ∧ step s = .next t ∧ t.pstate ≠ s.pstate :=
  ⟨{ sReady with host := [.blockReset] }, _, by unfold BlockInv; decide, ⟨[], rfl, .inl rfl⟩, rfl, by decide⟩
theorem witness_FrameChanges :
    ∃ s t : State, Accepts s (.setpx 0 0 .black) ∧ step s = .next t ∧ t.fb ≠ s.fb :=
  ⟨{ s0 .left with host := [.write 0 0 4 0x24000000#32] }, _, ⟨rfl, 0, 0x24000000#32, [], rfl, by decide⟩, rfl, by decide⟩
theorem witness_BgChanges : ∃ s t : State, Accepts s (.setbg .red) ∧ step s = .next t ∧ t.bg ≠ s.bg :=
  ⟨{ s0 .left with host := [.write 0 0 4 0x62000000#32] }, _, ⟨rfl, 0, 0x62000000#32, [], rfl, by decide⟩, rfl, by decide⟩
theorem witness_ResultChanges : ∃ s t : State, Accepts s .getbg ∧ step s = .next t ∧ t.result ≠ s.result :=
  ⟨{ s0 .left with host := [.write 0 0 4 0x5C000000#32] }, _, ⟨rfl, 0, 0x5C000000#32, [], rfl, by decide⟩, rfl, by decide⟩
theorem witness_LatchesChange_dc :
    ∃ s t : State, Performs s (.setDC .data) ∧ step s = .next t ∧ t.dc ≠ s.dc :=
  ⟨sRun [.setDC .data] good, _, ⟨psqMoves_sRun _ _, [], rfl⟩, rfl, by decide⟩
theorem witness_LatchesChange_rst :
    ∃ s t : State, Performs s (.setRst true) ∧ step s = .next t ∧ t.rst ≠ s.rst :=
  ⟨sRun [.setRst true] good, _, ⟨psqMoves_sRun _ _, [], rfl⟩, rfl, by decide⟩
theorem witness_StepEmits : ∃ t, step (sRun [.delay 1] good) = .next t ∧ t.trace = [.delay 1] := ⟨_, rfl, rfl⟩
theorem witness_TraceInv :
    ∃ t, BlockInv (sRun [.setDC .data] good) ∧ TraceInv (sRun [.setDC .data] good) ∧
      step (sRun [.setDC .data] good) = .next t :=
  ⟨_, by unfold BlockInv; decide, ⟨.inr (by decide), fun _ => rfl⟩, rfl⟩
theorem witness_CommandBytes :
    ∃ t, CommandBytesOk (sRun [.busWrite [0x12#8]] good) ∧ step (sRun [.busWrite [0x12#8]] good) = .next t :=
  ⟨_, by unfold CommandBytesOk; decide, rfl⟩
theorem witness_GrantedOperation :
    ∃ s : State, BlockInv s ∧ s.run = true ∧ s.host = [] ∧ s.rem.length ≤ s.inputs.length ∧
      ∀ e ∈ s.inputs.take s.rem.length, Granted s.build e = true :=
  ⟨sRun displaySteps good, by unfold BlockInv; decide, rfl, rfl, by decide, by decide⟩
theorem witness_StuckBusyInput :
    ∃ s : State, s.run = true ∧ s.rem = [.waitIdle] ∧ s.host = [.write 0 0 4 0x5C000000#32] ∧
      (∀ a ∈ ([] : List HostAct), a.isCommand = true ∨ a.agent = some 0) ∧ s.build.waitTimeoutMs = none ∧ 4 ≤ s.inputs.length ∧ ∀ e ∈ s.inputs.take 4, e.busy ≠ s.build.busyIsLow :=
  ⟨{ sRun [.waitIdle] bad with host := [.write 0 0 4 0x5C000000#32] }, rfl, rfl, rfl, by simp, rfl, by decide, by decide⟩

end Sys2Proof.Tests
end

section
/-! SUPPORT. The fields each operation's format marks "zero" (spec/30_encoding.md R81, R84), as one table; the rows of
R84, the cases of R85 and the decoder each read off it, and from that the obligation on illegal words. -/

namespace Sys2Proof.Safety

open Sys2Proof.Machine

/-! ### Fields and masks of a word -/

/-- The mask of the bits `hi` to `lo` of a word. -/
def bitsMask (hi lo : Nat) : Word := (BitVec.allOnes 32 >>> (31 - hi)) &&& (BitVec.allOnes 32 <<< lo)

/-- The mask of all the fields of a list, each written `(hi, lo)`. -/
def fieldsMask (fs : List (Nat × Nat)) : Word := fs.foldr (fun f m => bitsMask f.1 f.2 ||| m) 0#32

theorem bits_eq_extractLsb' (cw : Word) (hi lo : Nat) :
    bits cw hi lo = (cw.extractLsb' lo (hi + 1 - lo)).toNat := by
  simp [bits, Nat.shiftRight_eq_div_pow]

theorem bits_eq_zero_iff (cw : Word) (hi lo : Nat) :
    bits cw hi lo = 0 ↔ cw.extractLsb' lo (hi + 1 - lo) = 0#(hi + 1 - lo) := by
  rw [bits_eq_extractLsb', ← BitVec.toNat_inj, BitVec.toNat_zero]

theorem getLsbD_bitsMask {hi : Nat} (h : hi < 32) (lo i : Nat) :
    (bitsMask hi lo).getLsbD i = (decide (lo ≤ i) && decide (i ≤ hi)) := by
  rw [bitsMask, BitVec.getLsbD_and, BitVec.getLsbD_ushiftRight, BitVec.getLsbD_shiftLeft, BitVec.getLsbD_allOnes,
    BitVec.getLsbD_allOnes, Bool.eq_iff_iff]
  simp only [Bool.and_eq_true, Bool.not_eq_true', decide_eq_true_eq, decide_eq_false_iff_not]
  omega

theorem and_bitsMask_eq_iff {hi : Nat} (h : hi < 32) (lo : Nat) (v w : Word) :
    v &&& bitsMask hi lo = w &&& bitsMask hi lo ↔ bits v hi lo = bits w hi lo := by
  rw [bits_eq_extractLsb', bits_eq_extractLsb', BitVec.toNat_inj]
  constructor
  · intro he
    refine BitVec.eq_of_getLsbD_eq fun i hi' => ?_
    have hb := congrArg (BitVec.getLsbD · (lo + i)) he
    have hin : lo + i ≤ hi := by omega
    simpa [getLsbD_bitsMask h, hin, hi'] using hb
  · intro he
    refine BitVec.eq_of_getLsbD_eq fun i _ => ?_
    rw [BitVec.getLsbD_and, BitVec.getLsbD_and, getLsbD_bitsMask h]
    by_cases hin : lo ≤ i ∧ i ≤ hi
    · have hlt : i - lo < hi + 1 - lo := by omega
      have hb := congrArg (BitVec.getLsbD · (i - lo)) he
      have hbit : v.getLsbD i = w.getLsbD i := by simpa [hlt, Nat.add_sub_cancel' hin.1] using hb
      rw [hbit]
    · rw [← Bool.decide_and, decide_eq_false hin, Bool.and_false, Bool.and_false]

theorem and_or_eq_iff (v w a b : Word) :
    v &&& (a ||| b) = w &&& (a ||| b) ↔ v &&& a = w &&& a ∧ v &&& b = w &&& b := by
  simp only [BitVec.eq_of_getLsbD_eq_iff, BitVec.getLsbD_and, BitVec.getLsbD_or, ← forall₂_and]
  refine forall₂_congr fun i _ => ?_
  cases a.getLsbD i <;> cases b.getLsbD i <;> simp

theorem and_fieldsMask_eq_iff {fs : List (Nat × Nat)} (h : ∀ f ∈ fs, f.1 < 32) (v w : Word) :
    v &&& fieldsMask fs = w &&& fieldsMask fs ↔ ∀ f ∈ fs, bits v f.1 f.2 = bits w f.1 f.2 := by
  induction fs with
  | nil => simp [fieldsMask]
  | cons f fs ih =>
    rw [List.forall_mem_cons] at h ⊢
    rw [← ih h.2, ← and_bitsMask_eq_iff h.1, ← and_or_eq_iff]
    rfl

/-! ### The fields that must be zero -/

/-- The fields `(hi, lo)` that must be 0 in a word of the operation number `op` (R81, R84, R85 (b) to (d)). -/
def zeroFields : Nat → List (Nat × Nat)
  | 0x01 => [(23, 12)]
  | 0x02 | 0x18 => [(23, 12), (11, 0)]
  | 0x03 | 0x08 | 0x10 | 0x11 | 0x12 | 0x14 | 0x16 | 0x17 => [(25, 0)]
  | 0x0A => [(25, 24)]
  | 0x0B => [(25, 17)]
  | 0x13 | 0x15 => [(25, 20)]
  | 0x19 => [(25, 8)]
  | _ => []

/-- `op` is assigned, and every field that its format marks "zero" is 0: what R85 leaves. -/
def LegalWord (cw : Word) : Prop :=
  bits cw 31 26 ∈ assignedOps ∧ ∀ f ∈ zeroFields (bits cw 31 26), bits cw f.1 f.2 = 0

theorem not_illegalWord_iff (cw : Word) : ¬ IllegalWord cw ↔ LegalWord cw := by
  unfold IllegalWord LegalWord
  generalize bits cw 31 26 = op
  by_cases hop : op ∈ assignedOps
  · simp only [assignedOps, List.mem_cons, List.not_mem_nil, or_false] at hop
    rcases hop with rfl | rfl | rfl | rfl | rfl | rfl | rfl | rfl | rfl | rfl | rfl | rfl | rfl | rfl | rfl | rfl | rfl
    all_goals simp [assignedOps, zeroFields]
  · simp [hop]

/-! ### The rows of R84 -/

/-- The `op` column of a row, read off its `match`. -/
def rowOp (r : HostRow) : Nat := bits r.pattern 31 26

theorem map_rowOp_hostRows : hostRows.map rowOp = assignedOps := by decide

/-- A row's mask is `op` and the zero fields of its format, and its match has 0 in them. -/
theorem hostRows_mask : ∀ r ∈ hostRows,
    r.mask = fieldsMask ((31, 26) :: zeroFields (rowOp r)) ∧ r.pattern &&& r.mask = r.pattern ∧
    ∀ f ∈ zeroFields (rowOp r), f.1 < 32 ∧ bits r.pattern f.1 f.2 = 0 := by decide

theorem selects_iff {r : HostRow} (hr : r ∈ hostRows) (cw : Word) :
    r.selects cw = true ↔ bits cw 31 26 = rowOp r ∧ ∀ f ∈ zeroFields (rowOp r), bits cw f.1 f.2 = 0 := by
  obtain ⟨hmask, hpat, hz⟩ := hostRows_mask r hr
  have hlt : ∀ f ∈ (31, 26) :: zeroFields (rowOp r), f.1 < 32 :=
    List.forall_mem_cons.2 ⟨by decide, fun f hf => (hz f hf).1⟩
  calc r.selects cw = true
    _ ↔ cw &&& r.mask = r.pattern &&& r.mask := by rw [HostRow.selects, beq_iff_eq, hpat]
    _ ↔ ∀ f ∈ (31, 26) :: zeroFields (rowOp r), bits cw f.1 f.2 = bits r.pattern f.1 f.2 := by
      rw [hmask, and_fieldsMask_eq_iff hlt]
    _ ↔ bits cw 31 26 = rowOp r ∧ ∀ f ∈ zeroFields (rowOp r), bits cw f.1 f.2 = 0 := by
      rw [List.forall_mem_cons]
      exact and_congr_right fun _ => forall₂_congr fun f hf => by rw [(hz f hf).2]

theorem exists_selects_iff_legalWord (cw : Word) : (∃ r ∈ hostRows, r.selects cw = true) ↔ LegalWord cw := by
  constructor
  · rintro ⟨r, hr, hs⟩
    obtain ⟨hop, hz⟩ := (selects_iff hr cw).1 hs
    exact ⟨hop ▸ map_rowOp_hostRows ▸ List.mem_map_of_mem hr, hop ▸ hz⟩
  · rintro ⟨hop, hz⟩
    rw [← map_rowOp_hostRows] at hop
    obtain ⟨r, hr, he⟩ := List.mem_map.1 hop
    exact ⟨r, hr, (selects_iff hr cw).2 ⟨he.symm, he ▸ hz⟩⟩

theorem illegalWord_iff_selects_none (cw : Word) : IllegalWord cw ↔ ∀ r ∈ hostRows, r.selects cw = false := by
  rw [← not_iff_not, not_illegalWord_iff, ← exists_selects_iff_legalWord]
  simp

/-! ### The decoder -/

theorem fieldOp_toNat (cw : Word) : (fieldOp cw).toNat = bits cw 31 26 := (bits_eq_extractLsb' cw 31 26).symm

theorem cond_of_ite_eq_instr {p : Prop} [Decidable p] {i j : Instr} {r : Reject}
    (h : (if p then Decoded.instr i else .reject r) = .instr j) : p := by
  by_contra hp
  simp [hp] at h

theorem zeroBits_of_decodeFormatN {cw : Word} {i j : Instr} (h : decodeFormatN cw i = .instr j) : bits cw 25 0 = 0 :=
  (bits_eq_zero_iff cw 25 0).2 (cond_of_ite_eq_instr h)

theorem zeroBits_of_decodeFormatL {cw : Word} {i j : Instr} (h : decodeFormatL cw i = .instr j) : bits cw 25 20 = 0 :=
  (bits_eq_zero_iff cw 25 20).2 (cond_of_ite_eq_instr h)

theorem zeroBits_of_decodeFormatC0 {cw : Word} {i j : Instr} (h : decodeFormatC0 cw i = .instr j) :
    bits cw 23 12 = 0 ∧ bits cw 11 0 = 0 := by
  unfold decodeFormatC0 at h
  split at h
  · cases h
  next hy =>
    split at h
    · cases h
    next hx => exact ⟨(bits_eq_zero_iff cw 23 12).2 (not_not.1 hy), (bits_eq_zero_iff cw 11 0).2 (not_not.1 hx)⟩

theorem legalWord_of_op {cw : Word} {op : Nat} (hop : bits cw 31 26 = op) (hmem : op ∈ assignedOps)
    (hzero : ∀ f ∈ zeroFields op, bits cw f.1 f.2 = 0) : LegalWord cw := by
  subst hop
  exact ⟨hmem, hzero⟩

theorem legalWord_of_decodeHost {cw : Word} {i : Instr} (h : decodeHost cw = .instr i) : LegalWord cw := by
  unfold decodeHost at h
  rw [fieldOp_toNat] at h
  split at h
  case h_3 hop | h_4 hop | h_8 hop | h_9 hop | h_10 hop | h_12 hop | h_14 hop | h_15 hop =>
    exact legalWord_of_op hop (by decide) (by simp [zeroFields, zeroBits_of_decodeFormatN h])
  case h_2 hop | h_16 hop => exact legalWord_of_op hop (by decide) (by simp [zeroFields, zeroBits_of_decodeFormatC0 h])
  case h_11 hop | h_13 hop => exact legalWord_of_op hop (by decide) (by simp [zeroFields, zeroBits_of_decodeFormatL h])
  case h_1 hop =>
    have hy := (bits_eq_zero_iff cw 23 12).2 (cond_of_ite_eq_instr h)
    exact legalWord_of_op hop (by decide) (by simp [zeroFields, hy])
  case h_5 hop => exact legalWord_of_op hop (by decide) (by simp [zeroFields])
  case h_6 hop =>
    have hc := (bits_eq_zero_iff cw 25 24).2 (cond_of_ite_eq_instr h)
    exact legalWord_of_op hop (by decide) (by simp [zeroFields, hc])
  case h_7 hop =>
    have hhigh := (bits_eq_zero_iff cw 25 17).2 (cond_of_ite_eq_instr h)
    exact legalWord_of_op hop (by decide) (by simp [zeroFields, hhigh])
  case h_17 hop =>
    have hhigh := (bits_eq_zero_iff cw 25 8).2 (cond_of_ite_eq_instr h)
    exact legalWord_of_op hop (by decide) (by simp [zeroFields, hhigh])
  case h_18 => cases h

theorem hostStep_cmd_of_illegalWord {cw : Word} (h : IllegalWord cw) (n : Nat) (s : State) :
    hostStep (.write n 0 4 cw) s = .next (s.raise .illegalCommand) := by
  have haccept : hostStep (.write n 0 4 cw) s = acceptWord cw s := rfl
  rw [haccept]
  obtain ⟨i, hi, _⟩ | ⟨_, _, he⟩ := acceptWord_cases cw s
  · exact absurd h ((not_illegalWord_iff cw).2 (legalWord_of_decodeHost hi))
  · exact he

theorem raise_illegalCommand_of_idle {s : State} (hrun : s.run = false) (hrem : s.rem = []) :
    s.raise .illegalCommand = { s with err := .illegalCommand } := by
  simp [State.raise, Err.fromMicroStep, ← hrun, ← hrem]

/-- Settles O4: the rows' masks and the cases of R85 name the same zero fields, and the decoder rejects a word in
which one of them is set, so that accepting it raises IllegalCommand. -/
theorem illegalWordsEndWithIllegalCommand : Obligations.IllegalWordsEndWithIllegalCommand := by
  intro cw
  refine ⟨illegalWord_iff_selects_none cw, fun s n hill hrun hrem => ?_⟩
  rw [hostStep_cmd_of_illegalWord hill, raise_illegalCommand_of_idle hrun hrem]

end Sys2Proof.Safety
end

section
/-! SUPPORT. The field of a byte by its slot: the pair of bits, counted from bit 0, that holds position `pos mod 4`.
SHIFT_DIR decides the slot (spec/40_color_model.md R112) and nothing else, so masks, bits and reads are said once for
both directions, bit by bit, and the obligations on the colour model follow. -/

namespace Sys2Proof.Safety

open Sys2Proof.Machine

/-! ### Colour codes -/

@[simp] theorem ofCode_code (k : Color) : Color.ofCode k.code = k := by cases k <;> rfl

@[simp] theorem code_ofCode : ∀ c : BitVec 2, (Color.ofCode c).code = c := by decide

/-- Settles O7: the table of R110, and the two inverses. -/
theorem colorCodesAreABijection : Obligations.ColorCodesAreABijection :=
  ⟨rfl, rfl, rfl, rfl, ofCode_code, code_ofCode⟩

/-! ### The slot of a position -/

/-- The field at `pos mod 4` is the bits `2 * slot + 1` and `2 * slot` of the byte (the table of R112). -/
def fieldSlot (d : ShiftDir) (pos : Nat) : Nat :=
  match d with
  | .left => pos % 4
  | .right => 3 - pos % 4

theorem fieldSlot_lt (d : ShiftDir) (pos : Nat) : fieldSlot d pos < 4 := by
  cases d with
  | left => exact Nat.mod_lt pos (by decide)
  | right => exact Nat.lt_succ_of_le (Nat.sub_le 3 _)

theorem fieldSlot_eq_iff {d : ShiftDir} {p q : Nat} : fieldSlot d p = fieldSlot d q ↔ p % 4 = q % 4 := by
  cases d with
  | left => exact Iff.rfl
  | right =>
    simp only [fieldSlot]
    omega

theorem fieldSlot_right_eq_left_mirror {p : Nat} (h : p < 4) : fieldSlot .right p = fieldSlot .left (3 - p) := by
  simp only [fieldSlot]
  omega

theorem fieldWeight_eq_pow_slot (d : ShiftDir) (pos : Nat) : fieldWeight d pos = 4 ^ fieldSlot d pos := by
  cases d <;> rfl

theorem fieldShift_eq_two_mul (pos : Nat) : fieldShift pos = 2 * (pos % 4) := Nat.mul_comm (pos % 4) 2

/-! ### Bits, mask and extract at a slot -/

/-- R113's two formulas are one: under `.right` the code goes to the top slot and back down by its position, and loses
no bit. -/
theorem bitmaskBits_eq_shiftLeft (d : ShiftDir) (c : BitVec 2) (pos : Nat) :
    bitmaskBits d c pos = c.setWidth 8 <<< (2 * fieldSlot d pos) := by
  cases d with
  | left => rw [bitmaskBits, fieldShift_eq_two_mul, fieldSlot]
  | right =>
    have hp : pos % 4 < 4 := Nat.mod_lt pos (by decide)
    rw [bitmaskBits, fieldShift_eq_two_mul, fieldSlot]
    generalize pos % 4 = p at hp
    revert c
    interval_cases p <;> decide

/-- The field is where the code 3 has its ones. -/
theorem fieldmask_eq_bitmaskBits (d : ShiftDir) (pos : Nat) : fieldmask d pos = bitmaskBits d 3#2 pos := by
  cases d <;> rfl

theorem extractField_eq_extractLsb' (d : ShiftDir) (b : Byte) (pos : Nat) :
    extractField d b pos = b.extractLsb' (2 * fieldSlot d pos) 2 := by
  cases d with
  | left => rw [extractField, fieldShift_eq_two_mul, fieldSlot, BitVec.setWidth_ushiftRight_eq_extractLsb]
  | right =>
    rw [extractField, fieldShift_eq_two_mul, fieldSlot, BitVec.setWidth_ushiftRight_eq_extractLsb, Nat.mul_sub]

theorem getLsbD_bitmaskBits (d : ShiftDir) (c : BitVec 2) (pos i : Nat) :
    (bitmaskBits d c pos).getLsbD i = (decide (i / 2 = fieldSlot d pos) && c.getLsbD (i % 2)) := by
  have hslot := fieldSlot_lt d pos
  rw [bitmaskBits_eq_shiftLeft, BitVec.getLsbD_shiftLeft, BitVec.getLsbD_setWidth]
  by_cases hi : i / 2 = fieldSlot d pos
  · have hlow : i - 2 * fieldSlot d pos = i % 2 := by omega
    have h8 : i < 8 := by omega
    have hge : ¬ i < 2 * fieldSlot d pos := by omega
    have hmod : i % 2 < 8 := by omega
    simp [hi, hlow, h8, hge, hmod]
  · by_cases hbelow : i < 2 * fieldSlot d pos
    · simp [hi, hbelow]
    · have habove : c.getLsbD (i - 2 * fieldSlot d pos) = false := BitVec.getLsbD_of_ge c _ (by omega)
      simp [hi, habove]

theorem getLsbD_fieldmask (d : ShiftDir) (pos i : Nat) :
    (fieldmask d pos).getLsbD i = decide (i / 2 = fieldSlot d pos) := by
  have hone : (3#2).getLsbD (i % 2) = true := by
    obtain h | h := Nat.mod_two_eq_zero_or_one i <;> rw [h] <;> rfl
  rw [fieldmask_eq_bitmaskBits, getLsbD_bitmaskBits, hone, Bool.and_true]

theorem getLsbD_applyField (d : ShiftDir) (b : Byte) (c : BitVec 2) (pos i : Nat) :
    (applyField d b c pos).getLsbD i = if i / 2 = fieldSlot d pos then c.getLsbD (i % 2) else b.getLsbD i := by
  rw [applyField, bitmaskMask, BitVec.getLsbD_or, BitVec.getLsbD_and, BitVec.getLsbD_not, getLsbD_fieldmask,
    getLsbD_bitmaskBits]
  by_cases hi : i / 2 = fieldSlot d pos
  · simp [hi]
  · by_cases h8 : i < 8
    · simp [hi, h8]
    · have hout : b.getLsbD i = false := BitVec.getLsbD_of_ge b i (by omega)
      simp [hi, hout]

theorem getLsbD_extractField (d : ShiftDir) (b : Byte) (pos : Nat) {i : Nat} (h : i < 2) :
    (extractField d b pos).getLsbD i = b.getLsbD (2 * fieldSlot d pos + i) := by
  rw [extractField_eq_extractLsb', BitVec.getLsbD_extractLsb', decide_eq_true h, Bool.true_and]

/-! ### Their values -/

theorem bitmaskBits_toNat (d : ShiftDir) (c : BitVec 2) (pos : Nat) :
    (bitmaskBits d c pos).toNat = c.toNat * fieldWeight d pos := by
  have hpow : 4 ^ fieldSlot d pos ≤ 4 ^ 3 := Nat.pow_le_pow_right (by decide) (Nat.le_of_lt_succ (fieldSlot_lt d pos))
  have hlt : c.toNat * 4 ^ fieldSlot d pos < 4 * 4 ^ 3 := Nat.mul_lt_mul_of_lt_of_le c.isLt hpow (by decide)
  rw [bitmaskBits_eq_shiftLeft, fieldWeight_eq_pow_slot, BitVec.toNat_shiftLeft,
    BitVec.toNat_setWidth_of_le (by decide), Nat.shiftLeft_eq, Nat.pow_mul]
  exact Nat.mod_eq_of_lt hlt

theorem fieldmask_toNat (d : ShiftDir) (pos : Nat) : (fieldmask d pos).toNat = 3 * fieldWeight d pos := by
  rw [fieldmask_eq_bitmaskBits, bitmaskBits_toNat]
  rfl

theorem bitmaskMask_toNat (d : ShiftDir) (pos : Nat) : (bitmaskMask d pos).toNat = 255 - 3 * fieldWeight d pos := by
  rw [bitmaskMask, BitVec.toNat_not, fieldmask_toNat]

theorem extractField_toNat (d : ShiftDir) (b : Byte) (pos : Nat) :
    (extractField d b pos).toNat = b.toNat / fieldWeight d pos % 4 := by
  rw [extractField_eq_extractLsb', BitVec.extractLsb'_toNat, Nat.shiftRight_eq_div_pow, Nat.pow_mul,
    fieldWeight_eq_pow_slot]

theorem repByte_toNat (c : BitVec 2) : (repByte c).toNat = c.toNat * 0x55 := by
  have hc : c.toNat < 4 := c.isLt
  have hlt : c.toNat * 0x55 < 2 ^ 8 := by omega
  rw [repByte, BitVec.toNat_mul, BitVec.toNat_setWidth_of_le (by decide)]
  exact Nat.mod_eq_of_lt hlt

/-! ### Fields do not meet, and together they are the byte -/

theorem fieldmask_and_fieldmask_of_ne {d : ShiftDir} {p q : Nat} (h : p % 4 ≠ q % 4) :
    fieldmask d p &&& fieldmask d q = 0#8 := by
  have hslot : fieldSlot d p ≠ fieldSlot d q := mt fieldSlot_eq_iff.1 h
  refine BitVec.eq_of_getLsbD_eq fun i _ => ?_
  rw [BitVec.getLsbD_and, getLsbD_fieldmask, getLsbD_fieldmask, BitVec.getLsbD_zero]
  by_cases hi : i / 2 = fieldSlot d p
  · simp [hi, hslot]
  · simp [hi]

theorem bitmaskBits_and_bitmaskMask (d : ShiftDir) (c : BitVec 2) (pos : Nat) :
    bitmaskBits d c pos &&& bitmaskMask d pos = 0#8 := by
  refine BitVec.eq_of_getLsbD_eq fun i _ => ?_
  rw [bitmaskMask, BitVec.getLsbD_and, BitVec.getLsbD_not, getLsbD_fieldmask, getLsbD_bitmaskBits, BitVec.getLsbD_zero]
  by_cases hi : i / 2 = fieldSlot d pos <;> simp [hi]

theorem fieldmask_or_all (d : ShiftDir) :
    fieldmask d 0 ||| fieldmask d 1 ||| fieldmask d 2 ||| fieldmask d 3 = 0xFF#8 := by
  cases d <;> decide

theorem fieldmask_right_eq_left_mirror {p : Nat} (h : p < 4) : fieldmask .right p = fieldmask .left (3 - p) := by
  refine BitVec.eq_of_getLsbD_eq fun i _ => ?_
  rw [getLsbD_fieldmask, getLsbD_fieldmask, fieldSlot_right_eq_left_mirror h]

/-- Settles O8: a mask has its ones in one slot, and different positions have different slots. -/
theorem fieldMasksTileTheByte : Obligations.FieldMasksTileTheByte := by
  refine ⟨fun d p _ => fieldmask_toNat d p, fun d p q hp hq hne => fieldmask_and_fieldmask_of_ne ?_, fieldmask_or_all,
    fun p hp => fieldmask_right_eq_left_mirror hp⟩
  rwa [Nat.mod_eq_of_lt hp, Nat.mod_eq_of_lt hq]

/-- Settles O9: both values from the slot, and `bits` lies in the slot that `mask` clears. -/
theorem bitmaskClearsAndSetsOneField : Obligations.BitmaskClearsAndSetsOneField := fun d c pos =>
  ⟨bitmaskMask_toNat d pos, bitmaskBits_toNat d c pos, bitmaskBits_and_bitmaskMask d c pos⟩

/-! ### Reading after writing -/

theorem extractField_applyField_same (d : ShiftDir) (b : Byte) (c : BitVec 2) (pos : Nat) :
    extractField d (applyField d b c pos) pos = c := by
  refine BitVec.eq_of_getLsbD_eq fun i hi => ?_
  have hin : (2 * fieldSlot d pos + i) / 2 = fieldSlot d pos := by omega
  have hlow : (2 * fieldSlot d pos + i) % 2 = i := by omega
  rw [getLsbD_extractField d _ pos hi, getLsbD_applyField, if_pos hin, hlow]

theorem extractField_applyField_of_ne {d : ShiftDir} {p q : Nat} (h : q % 4 ≠ p % 4) (b : Byte) (c : BitVec 2) :
    extractField d (applyField d b c p) q = extractField d b q := by
  have hslot : fieldSlot d q ≠ fieldSlot d p := mt fieldSlot_eq_iff.1 h
  refine BitVec.eq_of_getLsbD_eq fun i hi => ?_
  have hout : (2 * fieldSlot d q + i) / 2 ≠ fieldSlot d p := by omega
  rw [getLsbD_extractField d _ q hi, getLsbD_extractField d _ q hi, getLsbD_applyField, if_neg hout]

theorem applyField_applyField (d : ShiftDir) (b : Byte) (c : BitVec 2) (pos : Nat) :
    applyField d (applyField d b c pos) c pos = applyField d b c pos := by
  refine BitVec.eq_of_getLsbD_eq fun i _ => ?_
  simp only [getLsbD_applyField]
  split <;> rfl

/-- Settles O10: `apply` replaces the bits of one slot and no others. -/
theorem applyChangesOnlyItsField : Obligations.ApplyChangesOnlyItsField := by
  intro d b c pos
  refine ⟨fun q hq hne => extractField_applyField_of_ne ?_ b c, extractField_applyField_same d b c pos, rfl,
    applyField_applyField d b c pos⟩
  rwa [Nat.mod_eq_of_lt hq]

/-- Settles O11: the code read is the code written, and `decode` gives back its colour. -/
theorem extractReadsTheFieldWritten : Obligations.ExtractReadsTheFieldWritten := fun d b pos =>
  ⟨extractField_toNat d b pos, fun k => by rw [extractField_applyField_same, ofCode_code]⟩

theorem getLsbD_repByte : ∀ (c : BitVec 2), ∀ i < 8, (repByte c).getLsbD i = c.getLsbD (i % 2) := by decide

theorem extractField_repByte (d : ShiftDir) (c : BitVec 2) (pos : Nat) : extractField d (repByte c) pos = c := by
  have hslot := fieldSlot_lt d pos
  refine BitVec.eq_of_getLsbD_eq fun i hi => ?_
  have hlow : (2 * fieldSlot d pos + i) % 2 = i := by omega
  rw [getLsbD_extractField d _ pos hi, getLsbD_repByte c _ (by omega), hlow]

/-- Settles O12: bit `i` of `rep(c)` is bit `i mod 2` of `c`, so the two bits of any slot read `c`. -/
theorem repFillsEveryField : Obligations.RepFillsEveryField :=
  ⟨repByte_toNat, extractField_repByte, by decide⟩

end Sys2Proof.Safety
end

section
/-! SUPPORT. The address of a pixel (spec/41_framebuffer.md R130, R131): a pixel in range is its row of 200 bytes, a byte
of that row and a position in the byte. -/

namespace Sys2Proof.Safety

open Sys2Proof.Machine

theorem inRange_iff (x y : Int) : inRange x y = true ↔ 0 ≤ x ∧ x ≤ 799 ∧ 0 ≤ y ∧ y ≤ 479 := by
  simp only [inRange, Bool.and_eq_true, decide_eq_true_eq]
  unfold panelWidth panelHeight
  omega

/-- R131 with its constants: two bits a pixel are four pixels a byte, and a row is 200 bytes. -/
theorem byteIndex_eq_toNat (x y : Int) : byteIndex x y = (x / 4 + 200 * y).toNat := by
  have hpos : x * bitsPerPixel / 8 = x / 4 := Int.mul_ediv_mul_of_pos_left x 4 (by decide : (0 : Int) < 2)
  rw [byteIndex, hpos, mul_comm y]
  rfl

theorem byteIndex_of_inRange {x y : Int} (h : inRange x y = true) : (byteIndex x y : Int) = x / 4 + 200 * y := by
  obtain ⟨hx, _, hy, _⟩ := (inRange_iff x y).1 h
  rw [byteIndex_eq_toNat, Int.toNat_of_nonneg (by omega)]

theorem byteIndex_le_of_inRange {x y : Int} (h : inRange x y = true) : byteIndex x y ≤ 95999 := by
  have hindex := byteIndex_of_inRange h
  obtain ⟨_, hx, _, hy⟩ := (inRange_iff x y).1 h
  omega

/-- The byte of a pixel inside its row is less than the row's 200, so the address determines the row and the byte. -/
theorem row_and_column_of_byteIndex {x y : Int} (h : inRange x y = true) :
    (byteIndex x y : Int) / 200 = y ∧ (byteIndex x y : Int) % 200 = x / 4 := by
  obtain ⟨hx0, hx, _, _⟩ := (inRange_iff x y).1 h
  have hcolumn : 0 ≤ x / 4 ∧ x / 4 < 200 := by omega
  rw [byteIndex_of_inRange h]
  omega

theorem pixel_eq_of_byteIndex_eq {x y x' y' : Int} (h : inRange x y = true) (h' : inRange x' y' = true)
    (hindex : byteIndex x y = byteIndex x' y') (hpos : x % 4 = x' % 4) : x = x' ∧ y = y' := by
  obtain ⟨hrow, hcolumn⟩ := row_and_column_of_byteIndex h
  obtain ⟨hrow', hcolumn'⟩ := row_and_column_of_byteIndex h'
  rw [hindex] at hrow hcolumn
  have hbyte : x / 4 = x' / 4 := hcolumn.symm.trans hcolumn'
  refine ⟨?_, hrow.symm.trans hrow'⟩
  rw [← Int.mul_ediv_add_emod x 4, ← Int.mul_ediv_add_emod x' 4, hbyte, hpos]

/-- Settles O15: the address splits into the row and the byte of the row, and the position gives the pixel of the byte. -/
theorem pixelAddressesStayInFrameAndDiffer : Obligations.PixelAddressesStayInFrameAndDiffer :=
  ⟨inRange_iff, fun _ _ h => ⟨byteIndex_of_inRange h, byteIndex_le_of_inRange h⟩,
    fun _ _ _ _ => pixel_eq_of_byteIndex_eq⟩

end Sys2Proof.Safety
end

section
/-! SUPPORT. The split of a transfer (spec/42_panel_link.md R152): each part takes between 1 and MAX_CHUNK bytes off what
is left, and the greedy split takes MAX_CHUNK each time. -/

namespace Sys2Proof.Safety

open Sys2Proof.Machine

theorem one_le_clampLen (max n : Nat) : 1 ≤ clampLen max n := Nat.le_max_left _ _

theorem clampLen_le {max : Nat} (hmax : 1 ≤ max) (n : Nat) : clampLen max n ≤ max :=
  Nat.max_le.2 ⟨hmax, Nat.min_le_right n max⟩

theorem clampLen_self {max : Nat} (hmax : 1 ≤ max) : clampLen max max = max :=
  (congrArg (Nat.max 1) (Nat.min_self max)).trans (Nat.max_eq_right hmax)

/-! ### Every split -/

/-- The length of the bytes is fuel enough, because every part takes one byte at least. -/
theorem flatten_splitBy {max fuel : Nat} {cuts : List Nat} {bytes : List Byte} (hfuel : bytes.length ≤ fuel) :
    (splitBy max fuel cuts bytes).flatten = bytes := by
  fun_induction splitBy max fuel cuts bytes with
  | case1 => exact (List.length_eq_zero_iff.1 (Nat.le_zero.1 hfuel)).symm
  | case2 => rfl
  | case3 fuel cuts b bytes ih =>
    have hlen := one_le_clampLen max (cuts.headD max)
    have hrest : ((b :: bytes).drop (clampLen max (cuts.headD max))).length ≤ fuel := by
      rw [List.length_drop]
      omega
    rw [List.flatten_cons, ih hrest, List.take_append_drop]

theorem part_of_splitBy {max fuel : Nat} (hmax : 1 ≤ max) {cuts : List Nat} {bytes k : List Byte}
    (hk : k ∈ splitBy max fuel cuts bytes) : k ≠ [] ∧ k.length ≤ max := by
  fun_induction splitBy max fuel cuts bytes with
  | case1 => cases hk
  | case2 => cases hk
  | case3 fuel cuts b bytes ih =>
    rcases List.mem_cons.1 hk with rfl | hk
    · have hlen := one_le_clampLen max (cuts.headD max)
      have hpos : 0 < ((b :: bytes).take (clampLen max (cuts.headD max))).length := by
        rw [List.length_take, List.length_cons]
        omega
      exact ⟨List.ne_nil_of_length_pos hpos, (List.length_take_le _ _).trans (clampLen_le hmax _)⟩
    · exact ih hk

theorem chunks_of_le {max : Nat} {cuts : List Nat} {bytes : List Byte} (hle : bytes.length ≤ max) (hne : bytes ≠ []) :
    chunks max cuts bytes = [bytes] := by
  rw [chunks, if_pos hle, if_neg (by simpa using hne)]

theorem chunks_of_lt {max : Nat} {cuts : List Nat} {bytes : List Byte} (hlt : max < bytes.length) :
    chunks max cuts bytes = splitBy max bytes.length cuts bytes :=
  if_neg (Nat.not_le.2 hlt)

theorem chunks_nil (max : Nat) (cuts : List Nat) : chunks max cuts [] = [] := rfl

theorem splits_chunks {max : Nat} (hmax : 1 ≤ max) (cuts : List Nat) (bytes : List Byte) :
    Splits max bytes (chunks max cuts bytes) := by
  by_cases hle : bytes.length ≤ max
  · by_cases hne : bytes = []
    · subst hne
      simp [Splits, chunks_nil]
    · simp [Splits, chunks_of_le hle hne, hne, hle]
  · rw [chunks_of_lt (Nat.not_le.1 hle)]
    exact ⟨flatten_splitBy le_rfl, fun _ hk => part_of_splitBy hmax hk, fun h => absurd h hle⟩

/-! ### The greedy split -/

theorem splitBy_greedy_cons {max : Nat} (hmax : 1 ≤ max) (fuel : Nat) (b : Byte) (bytes : List Byte) :
    splitBy max (fuel + 1) [] (b :: bytes) =
      (b :: bytes).take max :: splitBy max fuel [] ((b :: bytes).drop max) := by
  rw [splitBy, List.headD_nil, clampLen_self hmax, List.tail_nil]

theorem splitBy_nil_bytes (max fuel : Nat) (cuts : List Nat) : splitBy max fuel cuts [] = [] := by
  cases fuel <;> rfl

/-- With no lengths wanted, `chunks` needs no case for a short transfer: the greedy split does not split it either. -/
theorem chunks_greedy {max : Nat} (hmax : 1 ≤ max) (bytes : List Byte) :
    chunks max [] bytes = splitBy max bytes.length [] bytes := by
  by_cases hle : bytes.length ≤ max
  · cases bytes with
    | nil => rfl
    | cons b bytes =>
      rw [chunks_of_le hle (List.cons_ne_nil b bytes), List.length_cons, splitBy_greedy_cons hmax,
        List.take_of_length_le hle, List.drop_of_length_le hle, splitBy_nil_bytes]
  · exact chunks_of_lt (Nat.not_le.1 hle)

/-- R152's number of parts: taking one part of at most `max` off leaves one part fewer. -/
theorem ceil_div_eq_succ {n max : Nat} (hmax : 1 ≤ max) (hn : 1 ≤ n) :
    (n + max - 1) / max = (n - max + max - 1) / max + 1 := by
  rcases Nat.le_total max n with hle | hle
  · have hshift : n + max - 1 = (n - max + max - 1) + max := by omega
    rw [hshift, Nat.add_div_right _ hmax]
  · have hshift : n + max - 1 = (n - 1) + max := by omega
    rw [hshift, Nat.add_div_right _ hmax, Nat.div_eq_of_lt (by omega), Nat.div_eq_of_lt (by omega)]

theorem length_splitBy_greedy {max : Nat} (hmax : 1 ≤ max) {fuel : Nat} {bytes : List Byte}
    (hfuel : bytes.length ≤ fuel) : (splitBy max fuel [] bytes).length = (bytes.length + max - 1) / max := by
  induction fuel generalizing bytes with
  | zero =>
    rw [List.length_eq_zero_iff.1 (Nat.le_zero.1 hfuel), splitBy_nil_bytes]
    exact (Nat.div_eq_of_lt (by rw [List.length_nil]; omega)).symm
  | succ fuel ih =>
    cases bytes with
    | nil => exact (Nat.div_eq_of_lt (by rw [List.length_nil]; omega)).symm
    | cons b bytes =>
      have hrest : ((b :: bytes).drop max).length ≤ fuel := by
        rw [List.length_drop]
        omega
      rw [splitBy_greedy_cons hmax, List.length_cons, ih hrest, List.length_drop,
        ceil_div_eq_succ hmax (List.length_pos_of_mem List.mem_cons_self)]

theorem mem_dropLast_cons {α : Type} {a k : α} {l : List α} (hk : k ∈ (a :: l).dropLast) : k = a ∨ k ∈ l.dropLast := by
  cases l with
  | nil => cases hk
  | cons => exact List.mem_cons.1 hk

/-- A part with another part after it had `max` bytes to take. -/
theorem length_of_mem_dropLast_splitBy_greedy {max : Nat} (hmax : 1 ≤ max) {fuel : Nat} {bytes k : List Byte}
    (hk : k ∈ (splitBy max fuel [] bytes).dropLast) : k.length = max := by
  induction fuel generalizing bytes with
  | zero => cases hk
  | succ fuel ih =>
    cases bytes with
    | nil => cases hk
    | cons b bytes =>
      rw [splitBy_greedy_cons hmax] at hk
      by_cases hlast : (b :: bytes).length ≤ max
      · rw [List.drop_of_length_le hlast, splitBy_nil_bytes] at hk
        cases hk
      · rcases mem_dropLast_cons hk with rfl | hk
        · exact List.length_take_of_le (Nat.le_of_not_le hlast)
        · exact ih hk

/-- Settles O22: every part takes between 1 and MAX_CHUNK bytes off the front, the greedy one all it can. -/
theorem chunksAreAnAllowedSplit : Obligations.ChunksAreAnAllowedSplit := by
  intro max cuts bytes hmax
  refine ⟨splits_chunks hmax cuts bytes, chunks_of_le, ?_, ?_⟩
  · rw [chunks_greedy hmax]
    exact length_splitBy_greedy hmax le_rfl
  · rw [chunks_greedy hmax]
    exact fun _ => length_of_mem_dropLast_splitBy_greedy hmax

end Sys2Proof.Safety
end

section
/-! SUPPORT. How an operation ends in error (spec/60_exceptions.md): what `raise` writes, which operations make the
lifecycle check and the length check, in which order, and which errors the others can end with; from these the
obligations on errors at acceptance. -/

namespace Sys2Proof.Safety

open Sys2Proof.Machine

/-! ### The general abort (R205) -/

theorem raise_of_fromMicroStep {e : Err} (he : e.fromMicroStep = true) (s : State) :
    s.raise e = { s with rem := [], err := e, run := false, pstate := .uninitialized } := by
  simp [State.raise, he]

theorem raise_of_not_fromMicroStep {e : Err} (he : e.fromMicroStep = false) (s : State) :
    s.raise e = { s with rem := [], err := e, run := false } := by
  simp [State.raise, he]

/-- An error of acceptance finds REM empty (R30), so that only RUN and ERR change. -/
theorem raise_of_rem_eq_nil {e : Err} (he : e.fromMicroStep = false) {s : State} (hrem : s.rem = []) :
    s.raise e = { s with run := false, err := e } := by
  rw [raise_of_not_fromMicroStep he, ← hrem]

/-- Settles O37: the two kinds of error are told apart by `Err.fromMicroStep`. -/
theorem raiseAbortsTheOperation : Obligations.RaiseAbortsTheOperation := by
  refine fun s => ⟨fun e he => raise_of_fromMicroStep ?_ s, fun e he => raise_of_not_fromMicroStep ?_ s⟩
  · rcases he with rfl | rfl <;> rfl
  · rcases he with rfl | rfl | rfl | rfl | rfl <;> rfl

/-! ### Unsupported (R204) -/

theorem exec_setlut (imm8 : Nat) (s : State) : exec (.setlut imm8) s = .next (s.raise .unsupported) := rfl

/-- Settles O35: SETLUT does nothing but raise Unsupported. -/
theorem setlutIsUnsupported : Obligations.SetlutIsUnsupported := by
  intro imm8 s hrem
  rw [exec_setlut, raise_of_rem_eq_nil rfl hrem]

/-! ### StateError, then SizeMismatch (R202, R203, R212) -/

/-- The operations that make the lifecycle check (R202). -/
def NeedsReady (i : Instr) : Prop :=
  i = .sleep ∨ (∃ n, i = .update n) ∨ i = .display ∨ (∃ n, i = .upddisp n) ∨ i = .clear

theorem exec_of_needsReady {i : Instr} (hi : NeedsReady i) (s : State) : ∃ go, exec i s = .next (s.ifReady go) := by
  rcases hi with rfl | ⟨_, rfl⟩ | rfl | ⟨_, rfl⟩ | rfl <;> exact ⟨_, rfl⟩

/-- The lifecycle check stands outside the length check: it is made first. -/
theorem exec_of_update_or_upddisp {i : Instr} {n : Nat} (hi : i = .update n ∨ i = .upddisp n) (s : State) :
    ∃ go, exec i s = .next (s.ifReady (s.ifFrameLen n go)) := by
  rcases hi with rfl | rfl <;> exact ⟨_, rfl⟩

theorem exec_of_needsReady_of_not_ready {i : Instr} (hi : NeedsReady i) {s : State} (hs : s.pstate ≠ .ready) :
    exec i s = .next (s.raise .stateError) := by
  obtain ⟨go, he⟩ := exec_of_needsReady hi s
  rw [he, ((s.ifReady_cases go).resolve_left fun h => hs h.1).2]

theorem exec_of_wrong_length {i : Instr} {n : Nat} (hi : i = .update n ∨ i = .upddisp n) (hn : n ≠ fbLen) {s : State}
    (hs : s.pstate = .ready) : exec i s = .next (s.raise .sizeMismatch) := by
  obtain ⟨go, he⟩ := exec_of_update_or_upddisp hi s
  have hready : s.ifReady (s.ifFrameLen n go) = s.ifFrameLen n go :=
    ((s.ifReady_cases _).resolve_right fun h => h.1 hs).2
  rw [he, hready, ((s.ifFrameLen_cases n go).resolve_left fun h => hn h.1).2]

/-- How a host operation that makes no lifecycle check leaves ERR: it succeeds or is started, or it ends with
Unsupported (SETLUT) or RangeError (GETPX, FBRD). -/
theorem err_of_exec_of_not_needsReady {i : Instr} (hhost : hostMnemonic i ≠ none) (hi : ¬ NeedsReady i) {s t : State}
    (h : exec i s = .next t) : t.err = .noError ∨ t.err = .unsupported ∨ t.err = .rangeError := by
  cases i
  case bitmask | decode | defbyte | fbinit | getbg | setbg | init | wake => cases h; exact .inl rfl
  case setpx => cases h; left; split <;> rfl
  case getpx | fbrd =>
    cases h
    split
    · exact .inl rfl
    · exact .inr (.inr rfl)
  case setlut => cases h; exact .inr (.inl rfl)
  case sleep | update | display | upddisp | clear => exact absurd (by simp [NeedsReady]) hi
  -- the panel opcodes have no host mnemonic
  all_goals exact absurd rfl hhost

/-- Settles O36: the lifecycle check is outermost, the length check inside it, and `NeedsReady` names every host
operation that can raise StateError. -/
theorem stateCheckThenLengthCheck : Obligations.StateCheckThenLengthCheck := by
  intro i s hrem
  refine ⟨fun hi hs => ?_, ?_, fun hhost hi t h => ?_⟩
  · rw [exec_of_needsReady_of_not_ready hi hs, raise_of_rem_eq_nil rfl hrem]
  · rintro ⟨n, hn, hi⟩ hs
    rw [exec_of_wrong_length hi hn hs, raise_of_rem_eq_nil rfl hrem]
  · rcases err_of_exec_of_not_needsReady hhost hi h with he | he | he <;> simp [he]

end Sys2Proof.Safety
end

section
/-! SUPPORT. What the frame reads as right after block reset (spec/70_reset_and_hazards.md R231): FBRD and GETPX of an
address or a pixel of the frame, and the byte they find in the empty memory that block reset leaves. -/

namespace Sys2Proof.Safety

open Sys2Proof.Machine

/-! ### FBRD and GETPX in the frame (R134, R135) -/

theorem exec_fbrd_of_lt {a : Nat} (ha : a < fbLen) (s : State) :
    exec (.fbrd a) s = .next (s.setResult ((s.fb.read a).setWidth 32)).succeed :=
  congrArg Host.Outcome.next (if_pos ha)

theorem exec_getpx_of_inRange {x y : Int} (h : inRange x y = true) (s : State) :
    exec (.getpx x y) s =
      .next (s.setResult
        ((extractField s.build.shiftDir (s.fb.read (byteIndex x y)) x.toNat).setWidth 32)).succeed :=
  congrArg Host.Outcome.next (if_pos h)

/-! ### The frame that block reset leaves (R32) -/

theorem read_nil_eq_defaultByte (a : Nat) : Memory.read [] a = defaultByte := Memory.unlisted_eq_defaultByte

/-- SHIFT_DIR decides which field a pixel has, and the default byte has White in all of them. -/
theorem extractField_defaultByte (d : ShiftDir) (pos : Nat) : extractField d defaultByte pos = Color.white.code :=
  extractField_repByte d Color.white.code pos

theorem fbrd_of_empty_fb {s : State} (hfb : s.fb = []) {a : Nat} (ha : a < fbLen) :
    ∃ t, exec (.fbrd a) s = .next t ∧ t.result = defaultByte.setWidth 32 := by
  refine ⟨_, exec_fbrd_of_lt ha s, ?_⟩
  rw [State.succeed_result, State.setResult_result, hfb, read_nil_eq_defaultByte]

theorem getpx_of_empty_fb {s : State} (hfb : s.fb = []) {x y : Int} (h : inRange x y = true) :
    ∃ t, exec (.getpx x y) s = .next t ∧ t.result = Color.white.code.setWidth 32 := by
  refine ⟨_, exec_getpx_of_inRange h s, ?_⟩
  rw [State.succeed_result, State.setResult_result, hfb, read_nil_eq_defaultByte, extractField_defaultByte]

/-- Settles O42: block reset empties the frame memory, in which every byte is the default byte and every pixel White
whatever the build. -/
theorem resetStateIsTheSpecs : Obligations.ResetStateIsTheSpecs :=
  ⟨rfl, rfl, rfl, rfl, rfl, Memory.raw_length _, fun _ =>
    ⟨fun _ ha => fbrd_of_empty_fb rfl ha, fun _ _ h => getpx_of_empty_fb rfl h⟩⟩

end Sys2Proof.Safety
end

section
/-! SUPPORT. The round trip of the encoding (spec/30_encoding.md R80 to R84, R95): an assembled word has the fields it
was assembled of, and a word is assembled of its fields. -/

namespace Sys2Proof.Safety

open Sys2Proof.Machine

/-! ### The fields of an assembled word -/

@[simp] theorem fieldOp_wordOf (op : BitVec 6) (o : BitVec 26) : fieldOp (wordOf op o) = op :=
  BitVec.extractLsb'_append_eq_left

@[simp] theorem operands_wordOf (op : BitVec 6) (o : BitVec 26) : (wordOf op o).extractLsb' 0 26 = o :=
  BitVec.extractLsb'_append_eq_right

theorem extractLsb'_wordOf {lo len : Nat} (h : lo + len ≤ 26) (op : BitVec 6) (o : BitVec 26) :
    (wordOf op o).extractLsb' lo len = o.extractLsb' lo len := BitVec.extractLsb'_append_eq_of_add_le h

section Fields

variable (op : BitVec 6)

@[simp] theorem fieldC_wordOf (c : BitVec 2) (y x : BitVec 12) : fieldC (wordOf op (operandsCYX c y x)) = c := by
  rw [fieldC, extractLsb'_wordOf (by decide), operandsCYX, BitVec.extractLsb'_append_eq_left]

@[simp] theorem fieldY_wordOf (c : BitVec 2) (y x : BitVec 12) : fieldY (wordOf op (operandsCYX c y x)) = y := by
  rw [fieldY, extractLsb'_wordOf (by decide), operandsCYX, BitVec.extractLsb'_append_eq_of_add_le (by decide),
    BitVec.extractLsb'_append_eq_left]

@[simp] theorem fieldX_wordOf (c : BitVec 2) (y x : BitVec 12) : fieldX (wordOf op (operandsCYX c y x)) = x := by
  rw [fieldX, extractLsb'_wordOf (by decide), operandsCYX, BitVec.extractLsb'_append_eq_of_add_le (by decide),
    BitVec.extractLsb'_append_eq_right]

@[simp] theorem fieldAddr_wordOf (z : BitVec 9) (a : BitVec 17) : fieldAddr (wordOf op (z ++ a)) = a := by
  rw [fieldAddr, extractLsb'_wordOf (by decide), BitVec.extractLsb'_append_eq_right]

@[simp] theorem aboveAddr_wordOf (z : BitVec 9) (a : BitVec 17) : (wordOf op (z ++ a)).extractLsb' 17 9 = z := by
  rw [extractLsb'_wordOf (by decide), BitVec.extractLsb'_append_eq_left]

@[simp] theorem fieldLen_wordOf (z : BitVec 6) (n : BitVec 20) : fieldLen (wordOf op (z ++ n)) = n := by
  rw [fieldLen, extractLsb'_wordOf (by decide), BitVec.extractLsb'_append_eq_right]

@[simp] theorem aboveLen_wordOf (z : BitVec 6) (n : BitVec 20) : (wordOf op (z ++ n)).extractLsb' 20 6 = z := by
  rw [extractLsb'_wordOf (by decide), BitVec.extractLsb'_append_eq_left]

@[simp] theorem fieldImm_wordOf (z : BitVec 18) (n : BitVec 8) : fieldImm (wordOf op (z ++ n)) = n := by
  rw [fieldImm, extractLsb'_wordOf (by decide), BitVec.extractLsb'_append_eq_right]

@[simp] theorem aboveImm_wordOf (z : BitVec 18) (n : BitVec 8) : (wordOf op (z ++ n)).extractLsb' 8 18 = z := by
  rw [extractLsb'_wordOf (by decide), BitVec.extractLsb'_append_eq_left]

end Fields

/-! ### Decoding an assembled word -/

theorem decodeTableWord_word (cw : Word) : decodeTableWord 32 cw.toNat = (decodeHost cw).toOption := by
  rw [decodeTableWord, if_pos rfl, BitVec.ofNat_toNat, BitVec.setWidth_eq]

theorem toInt_ofInt_of_coordOk {v : Int} (h : coordOk v = true) : (BitVec.ofInt 12 v).toInt = v := by
  simp only [coordOk, Bool.and_eq_true, decide_eq_true_eq] at h
  exact BitVec.toInt_ofInt_eq_self (by decide) h.1 (Int.lt_of_le_sub_one h.2)

/-- Settles O1: the decoder reads back each field, and a value in the range of its field is not cut by it. -/
theorem decodeOfEncodeIsTheInstruction : Obligations.DecodeOfEncodeIsTheInstruction := by
  intro i hwf
  cases i
  case bitmask c pos =>
    have hpos : pos < 4096 := Nat.lt_succ_of_le (of_decide_eq_true hwf)
    simp [encode, decodeTableWord_word, decodeHost, Decoded.toOption, Nat.mod_eq_of_lt hpos]
  case setpx x y c =>
    obtain ⟨hx, hy⟩ := Bool.and_eq_true_iff.1 hwf
    simp [encode, decodeTableWord_word, decodeHost, Decoded.toOption, toInt_ofInt_of_coordOk hx,
      toInt_ofInt_of_coordOk hy, -BitVec.toInt_ofInt]
  case getpx x y =>
    obtain ⟨hx, hy⟩ := Bool.and_eq_true_iff.1 hwf
    simp [encode, decodeTableWord_word, decodeHost, Decoded.toOption, toInt_ofInt_of_coordOk hx,
      toInt_ofInt_of_coordOk hy, -BitVec.toInt_ofInt]
  case fbrd a =>
    have ha : a < 131072 := Nat.lt_succ_of_le (of_decide_eq_true hwf)
    simp [encode, decodeTableWord_word, decodeHost, Decoded.toOption, Nat.mod_eq_of_lt ha]
  case update n | upddisp n =>
    have hn : n < 1048576 := Nat.lt_succ_of_le (of_decide_eq_true hwf)
    simp [encode, decodeTableWord_word, decodeHost, decodeFormatL, Decoded.toOption, Nat.mod_eq_of_lt hn]
  case setlut n =>
    have hn : n < 256 := Nat.lt_succ_of_le (of_decide_eq_true hwf)
    simp [encode, decodeTableWord_word, decodeHost, Decoded.toOption, Nat.mod_eq_of_lt hn]
  case decode | setbg => simp [encode, decodeTableWord_word, decodeHost, decodeFormatC0, Decoded.toOption]
  case defbyte | fbinit | init | wake | sleep | display | clear | getbg =>
    simp [encode, decodeTableWord_word, decodeHost, decodeFormatN, Decoded.toOption]
  -- the panel opcodes have no operand
  all_goals rfl

/-! ### A word is assembled of its fields -/

theorem wordOf_fieldOp (cw : Word) : wordOf (fieldOp cw) (cw.extractLsb' 0 26) = cw :=
  BitVec.extractLsb'_append_extractLsb'

theorem operandsCYX_fields (cw : Word) : operandsCYX (fieldC cw) (fieldY cw) (fieldX cw) = cw.extractLsb' 0 26 := by
  have hyx : fieldY cw ++ fieldX cw = cw.extractLsb' 0 24 := BitVec.extractLsb'_append_extractLsb'_eq_extractLsb' rfl
  rw [operandsCYX, hyx]
  exact BitVec.extractLsb'_append_extractLsb'_eq_extractLsb' rfl

theorem zero_append_low {cw : Word} {hi lo : Nat} (hz : cw.extractLsb' lo hi = 0#hi) :
    0#hi ++ BitVec.ofNat lo (cw.extractLsb' 0 lo).toNat = cw.extractLsb' 0 (hi + lo) := by
  rw [BitVec.ofNat_toNat, BitVec.setWidth_eq, ← hz]
  exact BitVec.extractLsb'_append_extractLsb'_eq_extractLsb' (Nat.zero_add lo).symm

theorem wordOf_eq {cw : Word} {op : BitVec 6} {o : BitVec 26} (hop : (fieldOp cw).toNat = op.toNat)
    (ho : o = cw.extractLsb' 0 26) : wordOf op o = cw := by
  rw [ho, ← BitVec.eq_of_toNat_eq hop, wordOf_fieldOp]

/-- What EncodeOfDecodeIsTheWord says of an instruction `i` and the word `cw` it is decoded from. -/
def IsEncodingOf (i : Instr) (cw : Word) : Prop := i.wf = true ∧ encode i = (32, cw.toNat)

theorem isEncodingOf_wordOf {i : Instr} {cw : Word} {op : BitVec 6} {o : BitVec 26} (hwf : i.wf = true)
    (he : encode i = (32, (wordOf op o).toNat)) (hop : (fieldOp cw).toNat = op.toNat) (ho : o = cw.extractLsb' 0 26) :
    IsEncodingOf i cw :=
  ⟨hwf, wordOf_eq hop ho ▸ he⟩

theorem coordOk_toInt (v : BitVec 12) : coordOk v.toInt = true := by
  have hle := BitVec.le_toInt v
  have hlt := BitVec.toInt_lt (x := v)
  simp only [coordOk, Bool.and_eq_true, decide_eq_true_eq]
  omega

theorem coords_wf (x y : BitVec 12) : (coordOk x.toInt && coordOk y.toInt) = true :=
  Bool.and_eq_true_iff.2 ⟨coordOk_toInt x, coordOk_toInt y⟩

/-- A check of R85 that lets `i` through: its condition holds, and `i` is what is decoded. -/
theorem of_ite_eq_instr {p : Prop} [Decidable p] {i j : Instr} {r : Reject}
    (h : (if p then Decoded.instr i else .reject r) = .instr j) : i = j ∧ p := by
  have hp := cond_of_ite_eq_instr h
  rw [if_pos hp] at h
  exact ⟨Decoded.instr.inj h, hp⟩

theorem of_decodeFormatC0_eq_instr {cw : Word} {i j : Instr} (h : decodeFormatC0 cw i = .instr j) :
    i = j ∧ fieldY cw = 0#12 ∧ fieldX cw = 0#12 := by
  unfold decodeFormatC0 at h
  split at h
  · cases h
  next hy =>
    split at h
    · cases h
    next hx => exact ⟨Decoded.instr.inj h, not_not.1 hy, not_not.1 hx⟩

theorem isEncodingOf_of_decodeHost {cw : Word} {i : Instr} (h : decodeHost cw = .instr i) : IsEncodingOf i cw := by
  have hfields := operandsCYX_fields cw
  unfold decodeHost at h
  split at h
  case h_3 hop | h_4 hop | h_8 hop | h_9 hop | h_10 hop | h_12 hop | h_14 hop | h_15 hop =>
    obtain ⟨rfl, hz⟩ := of_ite_eq_instr h
    exact isEncodingOf_wordOf rfl rfl hop hz.symm
  case h_2 hop | h_16 hop =>
    obtain ⟨rfl, hy, hx⟩ := of_decodeFormatC0_eq_instr h
    rw [hy, hx] at hfields
    exact isEncodingOf_wordOf rfl rfl hop (by simpa using hfields)
  case h_11 hop | h_13 hop =>
    obtain ⟨rfl, hz⟩ := of_ite_eq_instr h
    exact isEncodingOf_wordOf (decide_eq_true (Nat.le_of_lt_succ (fieldLen cw).isLt)) rfl hop (zero_append_low hz)
  case h_1 hop =>
    obtain ⟨rfl, hy⟩ := of_ite_eq_instr h
    rw [hy] at hfields
    exact isEncodingOf_wordOf (decide_eq_true (Nat.le_of_lt_succ (fieldX cw).isLt)) rfl hop (by simpa using hfields)
  case h_5 hop =>
    cases h
    exact isEncodingOf_wordOf (coords_wf _ _) rfl hop (by simpa using hfields)
  case h_6 hop =>
    obtain ⟨rfl, hc⟩ := of_ite_eq_instr h
    rw [hc] at hfields
    exact isEncodingOf_wordOf (coords_wf _ _) rfl hop (by simpa using hfields)
  case h_7 hop =>
    obtain ⟨rfl, hz⟩ := of_ite_eq_instr h
    exact isEncodingOf_wordOf (decide_eq_true (Nat.le_of_lt_succ (fieldAddr cw).isLt)) rfl hop (zero_append_low hz)
  case h_17 hop =>
    obtain ⟨rfl, hz⟩ := of_ite_eq_instr h
    exact isEncodingOf_wordOf (decide_eq_true (Nat.le_of_lt_succ (fieldImm cw).isLt)) rfl hop (zero_append_low hz)
  case h_18 => cases h

/-- Settles O2: the operand bits of a decoded word are its fields, and those the format marks "zero" are zero. -/
theorem encodeOfDecodeIsTheWord : Obligations.EncodeOfDecodeIsTheWord := fun _ _ => isEncodingOf_of_decodeHost

/-! ### The panel opcodes (R95) -/

theorem decodePanel_of_mem_panelTable : ∀ p ∈ panelTable, decodePanel p.1 = .instr p.2 := by decide

theorem mem_panelTable_of_decodePanel {b : Byte} {i : Instr} (h : decodePanel b = .instr i) :
    (b, i) ∈ panelTable := by
  have hb : b = BitVec.ofNat 8 b.toNat := by rw [BitVec.ofNat_toNat, BitVec.setWidth_eq]
  unfold decodePanel at h
  split at h <;> cases h
  all_goals
    next hn =>
      rw [hb, hn]
      decide

/-- Settles O5: the table and the cases of the decoder are the same fifteen. -/
theorem panelOpcodeTableIsTheWholeTable : Obligations.PanelOpcodeTableIsTheWholeTable :=
  ⟨rfl, fun _ _ => ⟨mem_panelTable_of_decodePanel, decodePanel_of_mem_panelTable _⟩⟩

/-- Settles O6: each word is evaluated by the decoder. -/
theorem wordsOfTheSpecDecode : Obligations.WordsOfTheSpecDecode := by
  unfold Obligations.WordsOfTheSpecDecode
  decide

/-! ### The rows of R84 -/

/-- The mnemonic of the row with the operation number `op`. -/
def mnemonicOfOp (op : Nat) : Option String := (hostRows.find? (fun r => rowOp r == op)).map HostRow.name

theorem mnemonicOfOp_rowOp : ∀ r ∈ hostRows, mnemonicOfOp (rowOp r) = some r.name := by decide

theorem mnemonicOfOp_injective : ∀ op ∈ assignedOps, ∀ op' ∈ assignedOps,
    mnemonicOfOp op = mnemonicOfOp op' → op = op' := by decide

theorem rowOp_mem_assignedOps {r : HostRow} (hr : r ∈ hostRows) : rowOp r ∈ assignedOps :=
  map_rowOp_hostRows ▸ List.mem_map_of_mem hr

theorem rowOp_injective {r r' : HostRow} (hr : r ∈ hostRows) (hr' : r' ∈ hostRows) (h : rowOp r = rowOp r') :
    r = r' :=
  List.inj_on_of_nodup_map (map_rowOp_hostRows ▸ (by decide : assignedOps.Nodup)) hr hr' h

theorem hostMnemonic_of_decodeHost {cw : Word} {i : Instr} (h : decodeHost cw = .instr i) :
    hostMnemonic i = mnemonicOfOp (bits cw 31 26) := by
  rw [← fieldOp_toNat]
  unfold decodeHost at h
  split at h
  case h_2 hop | h_16 hop =>
    obtain ⟨rfl, _⟩ := of_decodeFormatC0_eq_instr h
    rw [hop]
    rfl
  case h_5 hop =>
    cases h
    rw [hop]
    rfl
  case h_18 => cases h
  all_goals
    next hop =>
      obtain ⟨rfl, _⟩ := of_ite_eq_instr h
      rw [hop]
      rfl

/-- With the operation number known and the fields of its format zero, the one case of the decoder that is left answers
an instruction. -/
theorem exists_instr_of_legalWord {cw : Word} (h : LegalWord cw) : ∃ i, decodeHost cw = .instr i := by
  obtain ⟨hop, hzero⟩ := h
  simp only [assignedOps, List.mem_cons, List.not_mem_nil, or_false] at hop
  rcases hop with hop | hop | hop | hop | hop | hop | hop | hop | hop | hop | hop | hop | hop | hop | hop | hop | hop
  all_goals
    simp only [hop, zeroFields, List.forall_mem_cons, bits_eq_zero_iff] at hzero
    simp [decodeHost, fieldOp_toNat, hop, decodeFormatN, decodeFormatL, decodeFormatC0, fieldC, fieldX, fieldY, hzero]

/-- Settles O3: the rows are told apart by their operation number, which fixes the mnemonic of what is decoded. -/
theorem rowsOfTheOperationMapDecode : Obligations.RowsOfTheOperationMapDecode := by
  refine ⟨rfl, fun r hr cw => ⟨fun hs => ?_, ?_⟩, fun r hr r' hr' cw hs hs' => ?_⟩
  · obtain ⟨i, hi⟩ := exists_instr_of_legalWord ((exists_selects_iff_legalWord cw).1 ⟨r, hr, hs⟩)
    have hop := ((selects_iff hr cw).1 hs).1
    exact ⟨i, hi, by rw [hostMnemonic_of_decodeHost hi, hop, mnemonicOfOp_rowOp r hr]⟩
  · rintro ⟨i, hi, hname⟩
    obtain ⟨hop, hzero⟩ := legalWord_of_decodeHost hi
    rw [hostMnemonic_of_decodeHost hi, ← mnemonicOfOp_rowOp r hr] at hname
    have hrow := mnemonicOfOp_injective _ hop _ (rowOp_mem_assignedOps hr) hname
    exact (selects_iff hr cw).2 ⟨hrow, hrow ▸ hzero⟩
  · exact rowOp_injective hr hr' (((selects_iff hr cw).1 hs).1.symm.trans ((selects_iff hr' cw).1 hs').1)

end Sys2Proof.Safety
end

section
/-! SUPPORT. The operations that take one step (spec/40_color_model.md R117 to R119, spec/41_framebuffer.md R132 to
R135, spec/43_panel_driver.md R179, R180): their values as numbers, and what each leaves as it was. -/

namespace Sys2Proof.Safety

open Sys2Proof.Machine

/-! ### Values in RESULT -/

/-- The next state of an operation that returns a value, in the form in which the statements name it. -/
theorem exists_next_of_setResult {o : Host.Outcome State Fault Refusal} {s : State} {w : Word} {n : Nat}
    (ho : o = .next (s.setResult w).succeed) (hw : w.toNat = n) :
    ∃ t, o = .next t ∧ t.result.toNat = n ∧ t = { s with run := false, err := .noError, result := t.result } :=
  ⟨_, ho, hw, rfl⟩

theorem toNat_append_eq_add {m n : Nat} (x : BitVec m) (y : BitVec n) :
    (x ++ y).toNat = 2 ^ n * x.toNat + y.toNat := by
  rw [BitVec.toNat_append, ← Nat.shiftLeft_add_eq_or_of_lt y.isLt, Nat.shiftLeft_eq, Nat.mul_comm]

/-- Settles O13: the word is the mask byte followed by the byte of the bits. -/
theorem bitmaskReturnsMaskAndBits : Obligations.BitmaskReturnsMaskAndBits := by
  refine fun c pos s => exists_next_of_setResult rfl ?_
  simp only [toNat_append_eq_add, bitmaskMask_toNat, bitmaskBits_toNat, BitVec.toNat_zero, Nat.mul_zero, Nat.zero_add,
    Nat.reducePow]

/-- Settles O14: the code of the colour a code decodes to is the code, and the default byte is 0x55. -/
theorem decodeAndDefbyteReturnTheirValue : Obligations.DecodeAndDefbyteReturnTheirValue := by
  refine ⟨fun c s => exists_next_of_setResult rfl ?_, fun s => ?_⟩
  · rw [BitVec.toNat_setWidth_of_le (by decide), code_ofCode]
  · have hval : defaultByte.setWidth 32 = 0x55#32 := by decide
    rw [← hval]
    rfl

/-- Settles O34: GETBG returns the code of BG, and SETBG writes BG alone. -/
theorem backgroundIsReadAndSet : Obligations.BackgroundIsReadAndSet :=
  ⟨fun _ => exists_next_of_setResult rfl (BitVec.toNat_setWidth_of_le (by decide)), fun _ _ => rfl⟩

/-! ### The frame memory -/

/-- Settles O16: the empty memory reads as the default byte everywhere, and White fills that byte. -/
theorem fbinitFillsTheFrameWithWhite : Obligations.FbinitFillsTheFrameWithWhite := by
  refine fun s => ⟨_, rfl, Memory.wf_nil, fun a => rfl, fun x y _ => ?_, rfl⟩
  rw [State.succeed_fb, State.setFb_fb, read_nil_eq_defaultByte, extractField_defaultByte, ofCode_code]

theorem byteIndex_lt_fbLen {x y : Int} (h : inRange x y = true) : byteIndex x y < fbLen :=
  Nat.lt_succ_of_le (byteIndex_le_of_inRange h)

/-- The frame after SETPX of a pixel in range (R133). -/
def frameAfterSetpx (x y : Int) (c : Color) (s : State) : Memory :=
  s.fb.write (byteIndex x y) (applyField s.build.shiftDir (s.fb.read (byteIndex x y)) c.code x.toNat)

theorem exec_setpx_of_inRange {x y : Int} (h : inRange x y = true) (c : Color) (s : State) :
    exec (.setpx x y c) s = .next (s.setFb (frameAfterSetpx x y c s)).succeed :=
  congrArg Host.Outcome.next (if_pos h)

theorem exec_setpx_of_not_inRange {x y : Int} (h : inRange x y = false) (c : Color) (s : State) :
    exec (.setpx x y c) s = .next s.succeed := by
  simp [exec, execSetpx, h]

theorem read_frameAfterSetpx {s : State} (hfb : s.fb.wf = true) (x y : Int) (c : Color) (a : Nat) :
    (frameAfterSetpx x y c s).read a =
      if a = byteIndex x y then applyField s.build.shiftDir (s.fb.read (byteIndex x y)) c.code x.toNat
      else s.fb.read a :=
  Memory.read_write hfb _ _ a

/-- Settles O17: SETPX is one write of the frame memory, inside the frame. -/
theorem setpxWritesOneField : Obligations.SetpxWritesOneField := by
  intro x y c s hr hfb
  refine ⟨_, exec_setpx_of_inRange hr c s, Memory.wf_write hfb (byteIndex_lt_fbLen hr), ?_, fun a ha => ?_, rfl⟩
  · exact (read_frameAfterSetpx hfb x y c _).trans (if_pos rfl)
  · exact (read_frameAfterSetpx hfb x y c a).trans (if_neg ha)

theorem not_inRange_of_outside {x y : Int} (h : x < 0 ∨ 799 < x ∨ y < 0 ∨ 479 < y) : inRange x y = false := by
  rw [← Bool.not_eq_true, inRange_iff]
  omega

/-- Settles O18: outside the frame SETPX does nothing but end in success. -/
theorem setpxOutOfRangeIsANoOp : Obligations.SetpxOutOfRangeIsANoOp := fun _ _ c s h =>
  exec_setpx_of_not_inRange (not_inRange_of_outside h) c s

theorem exec_getpx_of_not_inRange {x y : Int} (h : inRange x y = false) (s : State) :
    exec (.getpx x y) s = .next (s.raise .rangeError) := by
  simp [exec, execGetpx, h]

/-- Settles O20: in range GETPX returns the field as R115 reads it; out of range it raises RangeError. -/
theorem getpxReturnsTheCodeOrRangeError : Obligations.GetpxReturnsTheCodeOrRangeError := by
  refine fun x y s => ⟨fun hr => exists_next_of_setResult (exec_getpx_of_inRange hr s) ?_, fun hr hrem => ?_⟩
  · rw [BitVec.toNat_setWidth_of_le (by decide), extractField_toNat]
  · rw [exec_getpx_of_not_inRange hr, raise_of_rem_eq_nil rfl hrem]

theorem exec_fbrd_of_le {a : Nat} (ha : fbLen ≤ a) (s : State) : exec (.fbrd a) s = .next (s.raise .rangeError) :=
  congrArg Host.Outcome.next (if_neg (Nat.not_lt.2 ha))

/-- Settles O21: the length of the frame decides between the byte and RangeError. -/
theorem fbrdReturnsTheByteOrRangeError : Obligations.FbrdReturnsTheByteOrRangeError := by
  refine fun a s => ⟨fun ha => exists_next_of_setResult (exec_fbrd_of_lt ha s) ?_, fun ha hrem => ?_⟩
  · exact BitVec.toNat_setWidth_of_le (by decide)
  · rw [exec_fbrd_of_le ha, raise_of_rem_eq_nil rfl hrem]

/-! ### GETPX after SETPX -/

/-- The field of a pixel after SETPX of another: in another byte it is as before, and in the same byte it is another
field. -/
theorem pixel_frameAfterSetpx {s : State} (hfb : s.fb.wf = true) {x y x' y' : Int} (hr : inRange x y = true)
    (hr' : inRange x' y' = true) (c : Color) :
    extractField s.build.shiftDir ((frameAfterSetpx x y c s).read (byteIndex x' y')) x'.toNat =
      if x' = x ∧ y' = y then c.code
      else extractField s.build.shiftDir (s.fb.read (byteIndex x' y')) x'.toNat := by
  rw [read_frameAfterSetpx hfb]
  by_cases hsame : x' = x ∧ y' = y
  · obtain ⟨rfl, rfl⟩ := hsame
    rw [if_pos rfl, if_pos ⟨rfl, rfl⟩, extractField_applyField_same]
  · rw [if_neg hsame]
    split
    next hbyte =>
      have hpos : x' % 4 ≠ x % 4 := fun h => hsame (pixel_eq_of_byteIndex_eq hr' hr hbyte h)
      obtain ⟨hx, _⟩ := (inRange_iff x y).1 hr
      obtain ⟨hx', _⟩ := (inRange_iff x' y').1 hr'
      rw [extractField_applyField_of_ne (by omega), hbyte]
    · rfl

/-- Settles O19: both reads of GETPX are the field of the pixel, before and after the write. -/
theorem setpxThenGetpxRoundTrip : Obligations.SetpxThenGetpxRoundTrip := by
  intro x y x' y' c s t hfb hr hr' ht
  rw [exec_setpx_of_inRange hr] at ht
  cases ht
  refine ⟨_, _, exec_getpx_of_inRange hr' _, exec_getpx_of_inRange hr' s, ?_⟩
  simp only [State.succeed_result, State.setResult_result, State.succeed_fb, State.setFb_fb, State.succeed_build,
    State.setFb_build, pixel_frameAfterSetpx hfb hr hr']
  exact apply_ite (BitVec.setWidth 32) _ _ _

end Sys2Proof.Safety
end

section
/-! SUPPORT. The lists of micro-steps that acceptance loads (spec/42_panel_link.md R150 to R154, spec/43_panel_driver.md
R172 to R178), in the form in which the statements write them out. -/

namespace Sys2Proof.Safety

open Sys2Proof.Machine

/-! ### Every allowed split is the split of some wanted lengths (R152) -/

theorem clampLen_of_le {max n : Nat} (h1 : 1 ≤ n) (hn : n ≤ max) : clampLen max n = n := by
  have hmin : Nat.min n max = n := Nat.min_eq_left hn
  rw [clampLen, hmin]
  exact Nat.max_eq_right h1

theorem splitBy_lengths {max fuel : Nat} {ks : List (List Byte)} (hks : ∀ k ∈ ks, k ≠ [] ∧ k.length ≤ max)
    (hfuel : ks.flatten.length ≤ fuel) : splitBy max fuel (ks.map List.length) ks.flatten = ks := by
  induction ks generalizing fuel with
  | nil => exact splitBy_nil_bytes max fuel _
  | cons k ks ih =>
    obtain ⟨⟨hne, hlen⟩, hrest⟩ := List.forall_mem_cons.1 hks
    obtain ⟨b, k, rfl⟩ := List.exists_cons_of_ne_nil hne
    obtain ⟨fuel, rfl⟩ : ∃ n, fuel = n + 1 := Nat.exists_eq_add_one.2 (Nat.lt_of_lt_of_le (by simp) hfuel)
    have hfuel' : ks.flatten.length ≤ fuel := by
      simp only [List.flatten_cons, List.cons_append, List.length_cons, List.length_append] at hfuel
      omega
    have hclamp : clampLen max (b :: k).length = (b :: k).length := clampLen_of_le (by simp) hlen
    rw [List.flatten_cons, List.cons_append, splitBy, List.map_cons, List.headD_cons, List.tail_cons, hclamp,
      ← List.cons_append, List.take_left, List.drop_left, ih hrest hfuel']

/-- Settles O23: the lengths of the parts, as wanted lengths, give the parts back. -/
theorem everyAllowedSplitCanHappen : Obligations.EveryAllowedSplitCanHappen := by
  rintro max bytes ks - ⟨rfl, hparts, hone⟩
  refine ⟨ks.map List.length, ?_⟩
  by_cases hle : ks.flatten.length ≤ max
  · match ks, hone hle with
    | [], _ => rfl
    | [k], _ =>
      obtain ⟨hne, hlen⟩ := hparts k List.mem_cons_self
      rw [List.flatten_singleton, chunks_of_le hlen hne]
  · rw [chunks_of_lt (Nat.not_le.1 hle), splitBy_lengths hparts le_rfl]

theorem one_le_maxChunk (b : Build) : 1 ≤ b.maxChunk := Nat.succ_le_succ (Nat.zero_le _)

theorem splits_chunks_maxChunk (b : Build) (cuts : List Nat) (bytes : List Byte) :
    Splits b.maxChunk bytes (chunks b.maxChunk cuts bytes) := splits_chunks (one_le_maxChunk b) cuts bytes

/-! ### The table of INIT_SEQ (R171, R172) -/

theorem initSeqOk_iff {pairs : List (Byte × List Byte)} :
    initSeqOk pairs = true ↔ (∀ p ∈ pairs, p.2 ≠ []) ∧ (∀ p ∈ pairs, p.1 ∈ configOpcodes) ∧
      ∀ o ∈ requiredOpcodes, ∃ p ∈ pairs, p.1 = o := by
  simp only [initSeqOk, Bool.and_eq_true, List.all_eq_true, Bool.not_eq_true', List.isEmpty_eq_false_iff,
    List.contains_iff_mem, List.mem_map, and_assoc]

/-- The parts in which the payloads of an initialization table are sent. -/
def initChunks (max : Nat) : List (List Nat) → List (Byte × List Byte) → List (List (List Byte))
  | _, [] => []
  | cuts, p :: ps => chunks max (cuts.headD []) p.2 :: initChunks max cuts.tail ps

theorem initPairs_eq_pairSteps (max : Nat) (cuts : List (List Nat)) (ps : List (Byte × List Byte)) :
    initPairs max cuts ps = pairSteps ps (initChunks max cuts ps) := by
  induction ps generalizing cuts with
  | nil => rfl
  | cons p ps ih => simp [initPairs, pairSteps, initChunks, sendCommandWithData, sendCommand, sendData, ih]

theorem splits_initChunks {max : Nat} (hmax : 1 ≤ max) (cuts : List (List Nat)) (ps : List (Byte × List Byte)) :
    List.Forall₂ (fun p k => Splits max p.2 k) ps (initChunks max cuts ps) := by
  induction ps generalizing cuts with
  | nil => exact .nil
  | cons p ps ih => exact .cons (splits_chunks hmax _ p.2) (ih cuts.tail)

theorem initSteps_eq (b : Build) (cuts : List (List Nat)) : initSteps b cuts =
    [MicroStep.setRst true, .delay b.rstInitialDelayMs, .setRst false, .delay b.rstHoldMs, .setRst true, .delay 200,
        .waitIdle] ++
      pairSteps b.initSeq.pairs (initChunks b.maxChunk cuts b.initSeq.pairs) ++
      [MicroStep.setDC .command, .busWrite [0x04#8], .waitIdle] := by
  rw [initSteps, initPairs_eq_pairSteps]
  simp [resetPulse, rstSettleMs, sendCommand, opPowerOn]

theorem exec_init_or_wake {i : Instr} (hi : i = .init ∨ i = .wake) (s : State) : exec i s = .next s.launchInit := by
  rcases hi with rfl | rfl <;> rfl

/-- Settles O29: R171 is what an INIT_SEQ carries as its proof, and the list of INIT is the pairs of the table between
the reset pulse and power on. -/
theorem initAndWakeLoadTheInitSequence : Obligations.InitAndWakeLoadTheInitSequence := by
  refine ⟨fun b => ?_, fun s => ⟨_, splits_initChunks (one_le_maxChunk _) s.input.cuts _, fun i hi => ?_⟩⟩
  · obtain ⟨hpayload, hopcode, hrequired⟩ := initSeqOk_iff.1 b.initSeq.ok
    exact ⟨fun p hp => ⟨hpayload p hp, hopcode p hp⟩, hrequired⟩
  · rw [exec_init_or_wake hi, ← initSteps_eq]
    rfl

/-! ### The operations of Ready -/

theorem ifReady_of_ready {s : State} (h : s.pstate = .ready) (go : State) : s.ifReady go = go := if_pos h

/-- Settles O30: neither list has a split in it. -/
theorem sleepAndDisplayLoadTheirSequences : Obligations.SleepAndDisplayLoadTheirSequences := fun _ h =>
  ⟨congrArg Host.Outcome.next (ifReady_of_ready h _), congrArg Host.Outcome.next (ifReady_of_ready h _)⟩

theorem fbLen_eq : fbLen = 96000 := rfl

/-- The transfer with which UPDATE, UPDDISP and CLEAR begin. -/
theorem waitIdle_sendCommandWithData (max : Nat) (cuts : List Nat) (o : Byte) (bytes : List Byte) :
    [.waitIdle] ++ sendCommandWithData max cuts o bytes =
      [MicroStep.waitIdle, .setDC .command, .busWrite [o], .setDC .data] ++
        (chunks max cuts bytes).map MicroStep.busWrite := rfl

theorem exec_update_of_ready {s : State} (h : s.pstate = .ready) : exec (.update fbLen) s =
    .next (s.launch (updateSteps s.build s.input.cuts s.fb.raw) .ready) := by
  simp [exec, execUpdate, State.ifFrameLen, ifReady_of_ready h]

/-- Settles O31: the bytes are the raw view of the frame, in the parts that `chunks` makes of it. -/
theorem updateLoadsTheFrame : Obligations.UpdateLoadsTheFrame := by
  refine fun s h => ⟨_, splits_chunks_maxChunk s.build (s.input.cuts.headD []) s.fb.raw, ?_⟩
  rw [← fbLen_eq, exec_update_of_ready h, updateSteps, waitIdle_sendCommandWithData]
  rfl

theorem exec_upddisp_of_ready {s : State} (h : s.pstate = .ready) : exec (.upddisp fbLen) s =
    .next (s.launch (upddispSteps s.build s.input.cuts s.fb.raw) .ready) := by
  simp [exec, execUpddisp, State.ifFrameLen, ifReady_of_ready h]

/-- Settles O32: the list of UPDDISP is that of UPDATE, power on and the list of DISPLAY. -/
theorem upddispLoadsFrameThenRefresh : Obligations.UpddispLoadsFrameThenRefresh := by
  refine fun s h => ⟨_, splits_chunks_maxChunk s.build (s.input.cuts.headD []) s.fb.raw, ?_⟩
  rw [← fbLen_eq, exec_upddisp_of_ready h, upddispSteps, updateSteps, waitIdle_sendCommandWithData, List.append_assoc]
  rfl

/-- The list of CLEAR is a transfer like that of UPDATE, data stop and the list of DISPLAY. -/
theorem clearSteps_eq_append (b : Build) (cuts : List (List Nat)) (bg : Color) : clearSteps b cuts bg =
    [.waitIdle] ++
      sendCommandWithData b.maxChunk (cuts.headD []) opDataStart (List.replicate clearCount (repByte bg.code)) ++
      (sendCommand opDataStop ++ displaySteps) := by
  simp only [clearSteps, sendRepeated, sendCommandWithData, displaySteps, List.append_assoc]

theorem clearSteps_eq (b : Build) (cuts : List (List Nat)) (bg : Color) : clearSteps b cuts bg =
    [MicroStep.waitIdle, .setDC .command, .busWrite [0x10#8], .setDC .data] ++
      (chunks b.maxChunk (cuts.headD []) (List.replicate clearCount (repByte bg.code))).map MicroStep.busWrite ++
      [MicroStep.setDC .command, .busWrite [0x11#8], .setDC .command, .busWrite [0x12#8], .waitIdle] := by
  rw [clearSteps_eq_append, waitIdle_sendCommandWithData]
  exact (List.append_right_inj _).2 rfl

theorem clearCount_eq : clearCount = 96000 := rfl

theorem repByte_eq_ofNat (c : BitVec 2) : repByte c = BitVec.ofNat 8 (c.toNat * 0x55) := by
  rw [← repByte_toNat, BitVec.ofNat_toNat, BitVec.setWidth_eq]

/-- Settles O33: the bytes are CLEAR_COUNT times the byte of the background colour, in the parts that `chunks` makes of
them. -/
theorem clearLoadsTheBackgroundFill : Obligations.ClearLoadsTheBackgroundFill := by
  intro s h
  rw [← repByte_eq_ofNat, ← clearCount_eq]
  refine ⟨_, splits_chunks_maxChunk s.build (s.input.cuts.headD []) _, ?_⟩
  rw [← clearSteps_eq]
  exact congrArg Host.Outcome.next (ifReady_of_ready h _)

end Sys2Proof.Safety
end

section
/-! SUPPORT. What PSQ does with the micro-step at the head of REM (spec/42_panel_link.md R155 to R159): one equation for
each kind of micro-step and each answer of the environment. -/

namespace Sys2Proof.Safety

open Sys2Proof.Machine

/-! ### PSQ's move -/

theorem step_of_psqMoves {s : State} (h : PsqMoves s) : step s = mapNext State.advance (psqStep s) := by
  obtain ⟨hrun, hhost⟩ := h
  refine congrArg (mapNext State.advance) ?_
  unfold agentStep
  rw [hrun]
  rcases hhost with hnone | hfirst
  · rw [hnone]
    rfl
  · rw [hfirst]
    cases s.hostMove <;> rfl

theorem popRem_eq {s : State} {m : MicroStep} {r : List MicroStep} (h : s.rem = m :: r) :
    s.popRem = { s with rem := r } := by
  rw [State.popRem, h, List.tail_cons]

/-! ### The end of an operation (R170) -/

theorem settle_of_rem_eq_nil {s : State} (hrun : s.run = true) (hrem : s.rem = []) : s.settle = s.finish := by
  simp [State.settle, hrun, hrem]

theorem settle_of_rem_ne_nil {s : State} (hrem : s.rem ≠ []) : s.settle = s := by
  simp [State.settle, hrem]

/-- Settles O28: `settle` looks at REM. -/
theorem operationEndsWhenRemIsEmpty : Obligations.OperationEndsWhenRemIsEmpty := fun _ hrun =>
  ⟨settle_of_rem_eq_nil hrun, settle_of_rem_ne_nil⟩

/-! ### Line operations, delays and waits -/

section Head

variable {s : State} {r : List MicroStep}

theorem psqStep_setDC {m : DcMode} (h : s.rem = .setDC m :: r) : psqStep s = .next (s.popRem.driveDc m).settle := by
  simp [psqStep, h]

theorem psqStep_setRst {l : Bool} (h : s.rem = .setRst l :: r) : psqStep s = .next (s.popRem.driveRst l).settle := by
  simp [psqStep, h]

theorem psqStep_delay {n : Nat} (h : s.rem = .delay n :: r) : psqStep s = .next (s.popRem.waitMs n).settle := by
  simp [psqStep, h]

theorem psqStep_busWrite {bytes : List Byte} (h : s.rem = .busWrite bytes :: r) :
    psqStep s = transferStep bytes s.popRem := by
  simp [psqStep, h]

theorem psqStep_waitIdle (h : s.rem = .waitIdle :: r) : psqStep s = .next s.awaitIdle := by
  simp [psqStep, h]

end Head

/-- Settles O24: none of the three looks at the environment. -/
theorem lineAndDelayMicroStepsSucceed : Obligations.LineAndDelayMicroStepsSucceed := by
  refine fun s r hpsq => ⟨fun m h => ?_, fun l h => ?_, fun n h => ?_⟩
  · rw [step_of_psqMoves hpsq, psqStep_setDC h, popRem_eq h]
    rfl
  · rw [step_of_psqMoves hpsq, psqStep_setRst h, popRem_eq h]
    rfl
  · rw [step_of_psqMoves hpsq, psqStep_delay h, popRem_eq h]
    rfl

theorem awaitIdle_of_ready {s : State} (h : s.input.busy = s.build.busyIsLow) :
    s.awaitIdle = (s.popRem.emit .idle).settle := if_pos h

theorem awaitIdle_of_timeout {s : State} (hbusy : s.input.busy ≠ s.build.busyIsLow)
    (hbuild : s.build.waitTimeoutMs ≠ none) (htimer : s.input.timeout = true) :
    s.awaitIdle = (s.emit .timedOut).raise .timeout := by
  have hsome : s.build.waitTimeoutMs.isSome = true := Option.isSome_iff_ne_none.2 hbuild
  rw [State.awaitIdle, readyLevel, if_neg hbusy, hsome, htimer]
  rfl

theorem awaitIdle_of_held {s : State} (hbusy : s.input.busy ≠ s.build.busyIsLow)
    (h : s.build.waitTimeoutMs = none ∨ s.input.timeout = false) : s.awaitIdle = s := by
  rw [State.awaitIdle, readyLevel, if_neg hbusy]
  rcases h with h | h <;> simp [h]

/-- Settles O27: the three clauses are the three ways a wait can go. -/
theorem waitIdleReturnsGivesUpOrHolds : Obligations.WaitIdleReturnsGivesUpOrHolds := by
  intro s r hpsq h
  rw [step_of_psqMoves hpsq, psqStep_waitIdle h]
  refine ⟨fun hbusy => ?_, fun hbusy hbuild htimer => ?_, fun hbusy hheld => ?_⟩
  · rw [awaitIdle_of_ready hbusy, popRem_eq h]
    rfl
  · rw [awaitIdle_of_timeout hbusy hbuild htimer]
    rfl
  · rw [awaitIdle_of_held hbusy hheld]
    rfl

/-! ### Transfers -/

theorem busWrite_of_xferOk {s : State} (h : s.input.xferOk = true) (bytes : List Byte) :
    s.busWrite bytes = (s.receive bytes).emit (.write bytes) := if_pos h

theorem busWrite_of_not_xferOk {s : State} (h : s.input.xferOk = false) (bytes : List Byte) :
    s.busWrite bytes = ((s.receive (bytes.take s.input.delivered)).emit (.writeFail bytes)).raise .busError := by
  simp [State.busWrite, h]

/-- An operation that has been aborted has nothing to settle. -/
theorem settle_raise (s : State) (e : Err) : (s.raise e).settle = s.raise e :=
  State.settle_of_not_run (State.raise_run s e)

theorem transferStep_of_data {s : State} (h : s.dc = .data) (bytes : List Byte) :
    transferStep bytes s = .next (s.busWrite bytes).settle := by
  simp [transferStep, h]

theorem transferStep_of_opcode {s : State} (h : s.dc = .command) {b : Byte} {i : Instr}
    (hi : decodePanel b = .instr i) : transferStep [b] s = exec i s := by
  simp [transferStep, h, opcodeOf, hi]

/-- Settles O25: the answer of the transport decides. -/
theorem dataTransferSucceedsOrAborts : Obligations.DataTransferSucceedsOrAborts := by
  intro s bytes r hpsq hdc h
  have hdata : s.popRem.dc = .data := hdc
  rw [step_of_psqMoves hpsq, psqStep_busWrite h, transferStep_of_data hdata, popRem_eq h, ← hdc]
  refine ⟨fun hok => ?_, fun hfail => ?_⟩
  · rw [busWrite_of_xferOk (s := { s with rem := r }) hok]
    rfl
  · rw [busWrite_of_not_xferOk (s := { s with rem := r }) hfail, settle_raise]
    rfl

theorem exec_of_mem_panelTable : ∀ p ∈ panelTable, ∀ s : State, exec p.2 s = .next (s.busWrite [p.1]).settle := by
  intro p hp s
  fin_cases hp <;> rfl

/-- Settles O26: every panel opcode is the transfer of its one byte. -/
theorem panelOpcodesAreSentOrAbort : Obligations.PanelOpcodesAreSentOrAbort := by
  intro b i hmem s
  rw [exec_of_mem_panelTable _ hmem s]
  refine ⟨fun hok => ?_, fun hfail => ?_⟩
  · rw [busWrite_of_xferOk hok]
    rfl
  · rw [busWrite_of_not_xferOk hfail, settle_raise]
    rfl

/-- Settles O44: in command mode a transfer of an opcode byte runs the opcode. -/
theorem stepRunsThePanelOpcode : Obligations.StepRunsThePanelOpcode := by
  intro s b r i hpsq hdc h hi
  have hcommand : s.popRem.dc = .command := hdc
  rw [step_of_psqMoves hpsq, psqStep_busWrite h, transferStep_of_opcode hcommand hi, popRem_eq h]

end Sys2Proof.Safety
end

section
/-! SUPPORT. The host port (spec/20_memory.md R54, R57, R58, spec/70_reset_and_hazards.md R230): what an access of the
host does, which access can be made while an operation runs, and what the registers read as. -/

namespace Sys2Proof.Safety

open Sys2Proof.Machine

/-! ### The host's move -/

theorem step_of_hostMoves {s : State} {a : HostAct} {r : List HostAct} (h : HostMoves s a r) :
    step s = mapNext State.advance (hostStep a { s with host := r }) := by
  obtain ⟨hmove, hfirst⟩ := h
  refine congrArg (mapNext State.advance) ?_
  unfold agentStep
  rw [hmove]
  rcases hfirst with hidle | hfirst
  · simp [hidle]
  · simp [hfirst]

theorem hostMoves_of_idle {s : State} (hrun : s.run = false) {a : HostAct} {r : List HostAct}
    (hhost : s.host = a :: r) : HostMoves s a r :=
  ⟨by simp [State.hostMove, hrun, hhost], .inl hrun⟩

theorem hostMove_of_run {s : State} (hrun : s.run = true) : s.hostMove = firstUnheld [] s.host := if_pos hrun

/-- Settles O41: block reset is made as any other access is. -/
theorem blockResetRestoresTheResetState : Obligations.BlockResetRestoresTheResetState := by
  intro s rest h
  rw [step_of_hostMoves h]
  rfl

theorem hostStep_write_cmd (n : Nat) (w : Word) (s : State) : hostStep (.write n 0 4 w) s = acceptWord w s := rfl

theorem acceptWord_of_decodeHost {w : Word} {i : Instr} (h : decodeHost w = .instr i) (s : State) :
    acceptWord w s = exec i s := by
  simp [acceptWord, h]

/-- Settles O43: with RUN 0 the first access is made. -/
theorem stepRunsTheCommandWord : Obligations.StepRunsTheCommandWord := by
  intro s n w rest hrun hhost
  have hstep := step_of_hostMoves (hostMoves_of_idle hrun hhost)
  refine ⟨hstep, fun i hi => ?_⟩
  rw [hstep, hostStep_write_cmd, acceptWord_of_decodeHost hi]

/-! ### Accesses that are no commands -/

theorem accessRefusal_width {off width : Nat} (h : width ≠ 4) : accessRefusal off width = some .hostAccessNot32Bit :=
  if_pos h

theorem accessRefusal_offset {off : Nat} (h : off % 4 ≠ 0) : accessRefusal off 4 = some .hostAccessUnaligned := by
  simp [accessRefusal, h]

theorem accessRefusal_none {off : Nat} (h : off % 4 = 0) : accessRefusal off 4 = none := by
  simp [accessRefusal, h]

/-- Settles O39: the width is looked at first, then the alignment, then the offset. -/
theorem hostAccessesChangeNothingButCommands : Obligations.HostAccessesChangeNothingButCommands := by
  intro s n off
  refine ⟨fun h => ?_, fun w h h0 => ?_, fun width w h => ?_, fun w h => ?_⟩
  · simp [hostStep, accessRefusal_none h]
  · simp [hostStep, accessRefusal_none h, h0]
  · simp [hostStep, accessRefusal_width h]
  · simp [hostStep, accessRefusal_offset h]

/-! ### What waits while an operation runs (R58, R245) -/

theorem firstUnheld_cmd_cons (held : List Nat) (n : Nat) (w : Word) (l : List HostAct) :
    firstUnheld held (.write n 0 4 w :: l) =
      (firstUnheld (n :: held) l).map (fun p => (p.1, .write n 0 4 w :: p.2)) := rfl

theorem not_waits {a : HostAct} {n : Nat} (hcmd : a.isCommand = false) (hagent : a.agent ≠ some n) :
    a.waits [n] = false := by
  cases a with
  | blockReset => rfl
  | read who off width => simpa [HostAct.waits, HostAct.isCommand, HostAct.agent] using hagent
  | write who off width w =>
    have hne : who ≠ n := fun h => hagent (congrArg some h)
    simp [HostAct.waits, hcmd, HostAct.agent, hne]

/-- Behind a CMD write of agent `n`, CMD writes and accesses of `n` wait. -/
theorem hostMove_eq_none {s : State} {n : Nat} {w : Word} {rest : List HostAct} (hrun : s.run = true)
    (hhost : s.host = .write n 0 4 w :: rest) (hrest : ∀ a ∈ rest, a.isCommand = true ∨ a.agent = some n) :
    s.hostMove = none := by
  rw [hostMove_of_run hrun, hhost, firstUnheld_cmd_cons, firstUnheld_none, Option.map_none]
  exact fun a ha => (hrest a ha).imp_right fun h => ⟨n, List.mem_singleton_self n, h⟩

/-- While an operation runs the write at the head of the host's side is not what moves. -/
theorem before_of_hostMoves {s : State} {n : Nat} {w : Word} {rest : List HostAct} (hrun : s.run = true)
    (hhost : s.host = .write n 0 4 w :: rest) {a : HostAct} {r : List HostAct} (h : HostMoves s a r) :
    a.isCommand = false ∧ ∃ before after, s.host = .write n 0 4 w :: before ++ a :: after ∧
      r = .write n 0 4 w :: before ++ after ∧ ∀ c ∈ HostAct.write n 0 4 w :: before, c.agent ≠ a.agent := by
  obtain ⟨hmove, _⟩ := h
  rw [hostMove_of_run hrun] at hmove
  obtain ⟨hcmd, _, before, after, hsplit, hr, hagents⟩ := firstUnheld_some hmove
  refine ⟨hcmd, ?_⟩
  cases before with
  | nil =>
    have hhead : HostAct.write n 0 4 w = a := (List.cons.inj (hhost.symm.trans hsplit)).1
    subst hhead
    cases hcmd
  | cons c before =>
    have hhead : HostAct.write n 0 4 w = c := (List.cons.inj (hhost.symm.trans hsplit)).1
    subst hhead
    exact ⟨before, after, hsplit, hr, hagents⟩

end Sys2Proof.Safety
end

section
/-! SUPPORT. What a host read returns (spec/10_state.md R23 to R27): registers as fields put side by side. -/

namespace Sys2Proof.Safety

open Sys2Proof.Machine

theorem bitOf_toNat (b : Bool) : (bitOf b).toNat = b.toNat := by cases b <;> rfl

theorem statusReg_toNat (s : State) :
    s.statusReg.toNat = s.run.toNat + 2 * s.pstate.code.toNat + 16 * s.err.code.toNat := by
  simp only [State.statusReg, toNat_append_eq_add, bitOf_toNat, BitVec.toNat_zero]
  omega

theorem configReg_toNat (s : State) :
    s.configReg.toNat = (if s.build.shiftDir = .right then 1 else 0) + 2 * s.build.busyIsLow.toNat +
      4 * s.build.dcCmdLevel.toNat + 8 * s.build.waitTimeoutMs.isSome.toNat := by
  simp only [State.configReg, toNat_append_eq_add, bitOf_toNat, BitVec.toNat_zero, Bool.toNat, Bool.cond_decide]
  omega

theorem hostRegRead_of_not_mapped {off : Nat} (h : off ∉ [0x04, 0x08, 0x0C, 0x10]) (s : State) :
    s.hostRegRead off = 0#32 := by
  unfold State.hostRegRead
  split <;> simp_all

/-- Settles O38: each register is the sum of its fields, each times its weight. -/
theorem hostRegistersReadAsTheirFields : Obligations.HostRegistersReadAsTheirFields := by
  refine ⟨rfl, rfl, fun s => ⟨fun h => ?_, fun h => ?_⟩,
    fun s => ⟨statusReg_toNat s, rfl, ?_, configReg_toNat s, fun off h => hostRegRead_of_not_mapped h s⟩⟩
  · simp [State.dcLevel, h]
  · simp [State.dcLevel, h]
  · exact BitVec.toNat_setWidth_of_le (by decide)

end Sys2Proof.Safety
end

section
/-! SUPPORT. The transfers of a list of micro-steps (spec/30_encoding.md R97, spec/42_panel_link.md R150 to R155): every
list that acceptance loads is well made whatever the mode of the latch, since PanelLink drives DC before a transfer. -/

namespace Sys2Proof.Safety

open Sys2Proof.Machine

theorem isOpcodeTransfer_iff {bytes : List Byte} :
    isOpcodeTransfer bytes = true ↔ ∃ b i, bytes = [b] ∧ decodePanel b = .instr i := by
  unfold isOpcodeTransfer opcodeOf
  match bytes with
  | [] => simp
  | [b] => cases h : decodePanel b <;> simp [h]
  | _ :: _ :: _ => simp

/-- A list whose transfers are as `writesOk` asks from every mode of the latch. -/
def LoadOk (max : Nat) (l : List MicroStep) : Prop := ∀ m, writesOk max m l = true

section

variable {max : Nat} {l : List MicroStep}

theorem loadOk_nil : LoadOk max [] := fun _ => rfl

theorem loadOk_waitIdle (h : LoadOk max l) : LoadOk max (.waitIdle :: l) := h

theorem loadOk_sendCommand (hmax : 1 ≤ max) {o : Byte} (ho : isOpcodeTransfer [o] = true) (h : LoadOk max l) :
    LoadOk max (sendCommand o ++ l) := by
  intro m
  simp [sendCommand, writesOk, ho, hmax, h (some .command)]

theorem writesOk_map_busWrite {ks : List (List Byte)} (hks : ∀ k ∈ ks, k ≠ [] ∧ k.length ≤ max)
    (h : LoadOk max l) : writesOk max (some .data) (ks.map .busWrite ++ l) = true := by
  induction ks with
  | nil => exact h _
  | cons k ks ih =>
    obtain ⟨⟨hne, hlen⟩, hrest⟩ := List.forall_mem_cons.1 hks
    simp [writesOk, hne, hlen, ih hrest]

theorem loadOk_sendData (hmax : 1 ≤ max) (cuts : List Nat) (bytes : List Byte) (h : LoadOk max l) :
    LoadOk max (sendData max cuts bytes ++ l) := fun _ =>
  writesOk_map_busWrite (splits_chunks hmax cuts bytes).2.1 h

theorem loadOk_sendCommandWithData (hmax : 1 ≤ max) {o : Byte} (ho : isOpcodeTransfer [o] = true) (cuts : List Nat)
    (bytes : List Byte) (h : LoadOk max l) : LoadOk max (sendCommandWithData max cuts o bytes ++ l) := by
  rw [sendCommandWithData, List.append_assoc]
  exact loadOk_sendCommand hmax ho (loadOk_sendData hmax cuts bytes h)

theorem loadOk_initPairs (hmax : 1 ≤ max) {ps : List (Byte × List Byte)}
    (hps : ∀ p ∈ ps, isOpcodeTransfer [p.1] = true) (cuts : List (List Nat)) (h : LoadOk max l) :
    LoadOk max (initPairs max cuts ps ++ l) := by
  induction ps generalizing cuts with
  | nil => exact h
  | cons p ps ih =>
    obtain ⟨hp, hrest⟩ := List.forall_mem_cons.1 hps
    rw [initPairs, List.append_assoc]
    exact loadOk_sendCommandWithData hmax hp _ p.2 (ih hrest cuts.tail)

end

theorem isOpcodeTransfer_of_mem_configOpcodes : ∀ o ∈ configOpcodes, isOpcodeTransfer [o] = true := by decide

section

variable (b : Build) (cuts : List (List Nat))

theorem loadOk_initSteps : LoadOk b.maxChunk (initSteps b cuts) := by
  obtain ⟨_, hopcode, _⟩ := initSeqOk_iff.1 b.initSeq.ok
  have hpower : LoadOk b.maxChunk (sendCommand opPowerOn ++ [.waitIdle]) :=
    loadOk_sendCommand (one_le_maxChunk b) (by decide) (loadOk_waitIdle loadOk_nil)
  have hpairs := loadOk_initPairs (one_le_maxChunk b)
    (fun p hp => isOpcodeTransfer_of_mem_configOpcodes p.1 (hopcode p hp)) cuts hpower
  rw [initSteps, List.append_assoc, List.append_assoc]
  -- the reset pulse and the wait before the pairs send nothing
  exact hpairs

theorem loadOk_sleepSteps : LoadOk b.maxChunk sleepSteps :=
  loadOk_sendCommand (one_le_maxChunk b) (by decide)
    (loadOk_sendCommand (one_le_maxChunk b) (o := opDeepSleep) (by decide) loadOk_nil)

theorem loadOk_displaySteps : LoadOk b.maxChunk displaySteps :=
  loadOk_sendCommand (one_le_maxChunk b) (by decide) (loadOk_waitIdle loadOk_nil)

theorem loadOk_updateSteps (bytes : List Byte) : LoadOk b.maxChunk (updateSteps b cuts bytes) := by
  rw [updateSteps, ← List.append_nil (sendCommandWithData _ _ _ _)]
  exact loadOk_sendCommandWithData (one_le_maxChunk b) (by decide) _ bytes loadOk_nil

theorem loadOk_upddispSteps (bytes : List Byte) : LoadOk b.maxChunk (upddispSteps b cuts bytes) := by
  rw [upddispSteps, updateSteps, List.append_assoc, List.append_assoc]
  exact loadOk_sendCommandWithData (one_le_maxChunk b) (by decide) _ bytes
    (loadOk_sendCommand (one_le_maxChunk b) (by decide) (loadOk_displaySteps b))

theorem loadOk_clearSteps (bg : Color) : LoadOk b.maxChunk (clearSteps b cuts bg) := by
  rw [clearSteps_eq_append, List.append_assoc]
  exact loadOk_sendCommandWithData (one_le_maxChunk b) (by decide) _ _
    (loadOk_sendCommand (one_le_maxChunk b) (by decide) (loadOk_displaySteps b))

end

end Sys2Proof.Safety
end

section
/-! SUPPORT. Everything acceptance of a host operation can do to the block (spec/20_memory.md R58), as one inductive
predicate with a constructor for each way; the frames of the operations follow. -/

namespace Sys2Proof.Safety

open Sys2Proof.Machine

/-- `HostEffect s i t`: acceptance of the host operation `i` in `s` may give `t`. -/
inductive HostEffect (s : State) : Instr → State → Prop
  /-- A value in RESULT (R25). -/
  | value {i : Instr} (w : Word) (hi : returnsValue i = true) : HostEffect s i (s.setResult w).succeed
  /-- FBINIT (R132). -/
  | fbinit : HostEffect s .fbinit (s.setFb []).succeed
  /-- SETPX in range (R133). -/
  | setpx {x y : Int} {c : Color} (hr : inRange x y = true) :
      HostEffect s (.setpx x y c) (s.setFb (frameAfterSetpx x y c s)).succeed
  /-- SETPX out of range (R133). -/
  | setpxOut {x y : Int} {c : Color} : HostEffect s (.setpx x y c) s.succeed
  /-- SETBG (R180). -/
  | setbg {c : Color} : HostEffect s (.setbg c) (s.setBg c).succeed
  /-- INIT and WAKE (R172, R173). -/
  | launchInit {i : Instr} (hi : i = .init ∨ i = .wake) : HostEffect s i s.launchInit
  /-- An operation of Ready (R174 to R178). -/
  | launch {i : Instr} {steps : List MicroStep} {p : PState} (hi : NeedsReady i) (hs : s.pstate = .ready)
      (hp : p = .ready ∨ p = .sleeping) (hne : steps ≠ []) (hok : LoadOk s.build.maxChunk steps) :
      HostEffect s i (s.launch steps p)
  /-- An error at acceptance (R202 to R204, R209). -/
  | error {i : Instr} {e : Err} (he : e.fromMicroStep = false) (hline : e ≠ .lineFault) : HostEffect s i (s.raise e)

/-- An operation that makes the lifecycle check, from what it loads in Ready. -/
theorem hostEffect_ifReady {i : Instr} {s go : State} (h : s.pstate = .ready → HostEffect s i go) :
    HostEffect s i (s.ifReady go) := by
  rcases s.ifReady_cases go with ⟨hs, he⟩ | ⟨_, he⟩
  · rw [he]; exact h hs
  · rw [he]; exact .error rfl (by decide)

theorem hostEffect_ifFrameLen {i : Instr} {s go : State} (n : Nat) (h : HostEffect s i go) :
    HostEffect s i (s.ifFrameLen n go) := by
  rcases s.ifFrameLen_cases n go with ⟨_, he⟩ | ⟨_, he⟩
  · rw [he]; exact h
  · rw [he]; exact .error rfl (by decide)

theorem hostEffect_of_exec {i : Instr} (hhost : hostMnemonic i ≠ none) {s t : State} (h : exec i s = .next t) :
    HostEffect s i t := by
  cases i
  case bitmask | decode | defbyte | getbg => cases h; exact .value _ rfl
  case fbinit => cases h; exact .fbinit
  case setbg => cases h; exact .setbg
  case setlut => cases h; exact .error rfl (by decide)
  case init | wake => cases h; exact .launchInit (by simp)
  case setpx x y c =>
    cases hr : inRange x y with
    | true => rw [exec_setpx_of_inRange hr] at h; cases h; exact .setpx hr
    | false => rw [exec_setpx_of_not_inRange hr] at h; cases h; exact .setpxOut
  case getpx x y =>
    cases hr : inRange x y with
    | true => rw [exec_getpx_of_inRange hr] at h; cases h; exact .value _ rfl
    | false => rw [exec_getpx_of_not_inRange hr] at h; cases h; exact .error rfl (by decide)
  case fbrd a =>
    rcases Nat.lt_or_ge a fbLen with ha | ha
    · rw [exec_fbrd_of_lt ha] at h; cases h; exact .value _ rfl
    · rw [exec_fbrd_of_le ha] at h; cases h; exact .error rfl (by decide)
  case sleep =>
    cases h
    have hi : NeedsReady .sleep := by simp [NeedsReady]
    exact hostEffect_ifReady fun hs => .launch hi hs (.inr rfl) (by simp [sleepSteps]) (loadOk_sleepSteps _)
  case display =>
    cases h
    have hi : NeedsReady .display := by simp [NeedsReady]
    exact hostEffect_ifReady fun hs => .launch hi hs (.inl rfl) (by simp [displaySteps]) (loadOk_displaySteps _)
  case clear =>
    cases h
    have hi : NeedsReady .clear := by simp [NeedsReady]
    exact hostEffect_ifReady fun hs => .launch hi hs (.inl rfl) (by simp [clearSteps]) (loadOk_clearSteps _ _ _)
  case update n =>
    cases h
    have hi : NeedsReady (.update n) := by simp [NeedsReady]
    exact hostEffect_ifReady fun hs => hostEffect_ifFrameLen n
      (.launch hi hs (.inl rfl) (by simp [updateSteps]) (loadOk_updateSteps _ _ _))
  case upddisp n =>
    cases h
    have hi : NeedsReady (.upddisp n) := by simp [NeedsReady]
    exact hostEffect_ifReady fun hs => hostEffect_ifFrameLen n
      (.launch hi hs (.inl rfl) (by simp [upddispSteps, updateSteps]) (loadOk_upddispSteps _ _ _))
  -- the panel opcodes have no host mnemonic
  all_goals exact absurd rfl hhost

/-! ### Frames of the operations -/

theorem hostMnemonic_of_returnsValue {i : Instr} (h : returnsValue i = true) : hostMnemonic i ≠ none := by
  cases i
  case bitmask | decode | defbyte | getpx | fbrd | getbg => exact Option.some_ne_none _
  all_goals cases h

theorem not_needsReady_of_returnsValue {i : Instr} (h : returnsValue i = true) : ¬ NeedsReady i := by
  rintro (rfl | ⟨_, rfl⟩ | rfl | ⟨_, rfl⟩ | rfl) <;> cases h

/-- Settles O45: an operation that returns a value does so, or ends with an error. -/
theorem frameOfValueOperations : Obligations.FrameOfValueOperations := by
  intro i s t hi hrem h
  cases hostEffect_of_exec (hostMnemonic_of_returnsValue hi) h with
  | value => exact ⟨fun _ => rfl, rfl⟩
  | error he =>
    rw [raise_of_rem_eq_nil he hrem]
    exact ⟨fun _ => rfl, rfl⟩
  | launch hready => exact absurd hready (not_needsReady_of_returnsValue hi)
  | launchInit hinit => rcases hinit with rfl | rfl <;> cases hi
  | fbinit | setpx | setpxOut | setbg => cases hi

/-- The operations that drive the panel, and SETLUT. -/
def PanelOperation (i : Instr) : Prop :=
  i = .init ∨ i = .wake ∨ i = .sleep ∨ (∃ n, i = .update n) ∨ i = .display ∨ (∃ n, i = .upddisp n) ∨ i = .clear ∨
    ∃ n, i = .setlut n

theorem of_panelOperation {i : Instr} (h : PanelOperation i) : hostMnemonic i ≠ none ∧ returnsValue i = false := by
  rcases h with rfl | rfl | rfl | ⟨_, rfl⟩ | rfl | ⟨_, rfl⟩ | rfl | ⟨_, rfl⟩ <;> exact ⟨Option.some_ne_none _, rfl⟩

/-- Settles O46: such an operation is started, or it ends with an error. -/
theorem frameOfPanelOperations : Obligations.FrameOfPanelOperations := by
  intro i s t hi h
  obtain ⟨hhost, hvalue⟩ := of_panelOperation hi
  cases hostEffect_of_exec hhost h with
  | launchInit hinit => exact ⟨fun _ => rfl, fun h1 h2 => absurd hinit (not_or.2 ⟨h1, h2⟩), rfl⟩
  | launch => exact ⟨fun _ => rfl, fun _ _ => rfl, rfl⟩
  | error he => exact ⟨fun _ => rfl, fun _ _ => by rw [State.raise_pstate, he, if_neg Bool.false_ne_true], rfl⟩
  | value _ hv => exact absurd hv (Bool.eq_false_iff.1 hvalue)
  | fbinit | setpx | setpxOut | setbg => simp at hi

/-- Settles O47: a transfer and the end of the operation after it write the fields named and no others. -/
theorem frameOfPanelOpcodes : Obligations.FrameOfPanelOpcodes := by
  intro b i s t hmem h
  rw [exec_of_mem_panelTable _ hmem s] at h
  cases h
  rcases s.busWrite_cases [b] with ⟨_, hb⟩ | ⟨_, hb⟩
  · rcases (s.busWrite [b]).settle_cases with ⟨_, _, hs⟩ | ⟨_, hs⟩ <;> rw [hs, hb] <;> exact ⟨fun _ => rfl, rfl⟩
  · rw [hb, settle_raise]
    exact ⟨fun _ => rfl, rfl⟩

end Sys2Proof.Safety
end

section
/-! SUPPORT. Everything one step can do (spec/00_scope.md R11, spec/20_memory.md R58, spec/43_panel_driver.md R170), as
one inductive predicate with a constructor for each way; the rules about every step are case splits on it. -/

namespace Sys2Proof.Safety

open Sys2Proof.Machine

/-! ### A micro-step that goes well -/

/-- What a micro-step does, REM aside, when its transfer succeeds or its wait finds the panel ready. -/
def performed : MicroStep → State → State
  | .setDC m, s => s.driveDc m
  | .setRst l, s => s.driveRst l
  | .delay n, s => s.waitMs n
  | .busWrite bytes, s => (s.receive bytes).emit (.write bytes)
  | .waitIdle, s => s.emit .idle

section

variable (m : MicroStep) (s : State)

@[simp] theorem performed_fb : (performed m s).fb = s.fb := by cases m <;> rfl
@[simp] theorem performed_bg : (performed m s).bg = s.bg := by cases m <;> rfl
@[simp] theorem performed_pstate : (performed m s).pstate = s.pstate := by cases m <;> rfl
@[simp] theorem performed_run : (performed m s).run = s.run := by cases m <;> rfl
@[simp] theorem performed_err : (performed m s).err = s.err := by cases m <;> rfl
@[simp] theorem performed_result : (performed m s).result = s.result := by cases m <;> rfl
@[simp] theorem performed_rem : (performed m s).rem = s.rem := by cases m <;> rfl
@[simp] theorem performed_onEnd : (performed m s).onEnd = s.onEnd := by cases m <;> rfl
@[simp] theorem performed_build : (performed m s).build = s.build := by cases m <;> rfl
@[simp] theorem performed_host : (performed m s).host = s.host := by cases m <;> rfl
@[simp] theorem performed_inputs : (performed m s).inputs = s.inputs := by cases m <;> rfl
@[simp] theorem performed_trace : (performed m s).trace = s.trace ++ [m.event] := by cases m <;> rfl

/-! ### The end of an operation leaves the rest -/

@[simp] theorem settle_fb : s.settle.fb = s.fb := by unfold State.settle; split <;> rfl
@[simp] theorem settle_bg : s.settle.bg = s.bg := by unfold State.settle; split <;> rfl
@[simp] theorem settle_result : s.settle.result = s.result := by unfold State.settle; split <;> rfl
@[simp] theorem settle_dc : s.settle.dc = s.dc := by unfold State.settle; split <;> rfl
@[simp] theorem settle_rst : s.settle.rst = s.rst := by unfold State.settle; split <;> rfl
@[simp] theorem settle_rem : s.settle.rem = s.rem := by unfold State.settle; split <;> rfl
@[simp] theorem settle_build : s.settle.build = s.build := by unfold State.settle; split <;> rfl
@[simp] theorem settle_host : s.settle.host = s.host := by unfold State.settle; split <;> rfl
@[simp] theorem settle_inputs : s.settle.inputs = s.inputs := by unfold State.settle; split <;> rfl
@[simp] theorem settle_trace : s.settle.trace = s.trace := by unfold State.settle; split <;> rfl
@[simp] theorem settle_rx : s.settle.rx = s.rx := by unfold State.settle; split <;> rfl

end

/-- In command mode the transfer is one opcode byte (R97). -/
def SendsOpcode (s : State) (bytes : List Byte) : Prop := s.dc = .command → isOpcodeTransfer bytes = true

/-! ### Every way a step can go on -/

/-- `AgentMove s t`: the agent that moves in `s` may make it `t`; a step is that and `State.advance`. -/
inductive AgentMove (s : State) : State → Prop
  /-- No agent can move, or PSQ waits (R12). -/
  | stay : AgentMove s s
  /-- A read, or a write that is ignored (R57). -/
  | access {a : HostAct} {r : List HostAct} {reads : List (Nat × Nat × Word)} (h : HostMoves s a r) :
      AgentMove s { s with host := r, reads := reads }
  /-- Block reset (R230). -/
  | reset {r : List HostAct} (h : HostMoves s .blockReset r) : AgentMove s { s with host := r }.blockReset
  /-- A command is accepted (R58). -/
  | accept {i : Instr} {t : State} {a : HostAct} {r : List HostAct} (h : HostMoves s a r) (hi : Accepts s i)
      (ht : HostEffect { s with host := r } i t) : AgentMove s t
  /-- An illegal command ends at once (R201). -/
  | illegal {a : HostAct} {r : List HostAct} (h : HostMoves s a r) (hrun : s.run = false) :
      AgentMove s ({ s with host := r }.raise .illegalCommand)
  /-- The operation has no micro-step left. -/
  | finish (h : PsqMoves s) (hrem : s.rem = []) : AgentMove s s.finish
  /-- A micro-step goes well (R155 to R159). -/
  | done {m : MicroStep} {r : List MicroStep} (h : PsqMoves s) (hrem : s.rem = m :: r)
      (hsend : ∀ bytes, m = .busWrite bytes → SendsOpcode s bytes) :
      AgentMove s (performed m { s with rem := r }).settle
  /-- A transfer fails after some of its bytes (R206). -/
  | failed {bytes : List Byte} {r : List MicroStep} (n : Nat) (h : PsqMoves s) (hrem : s.rem = .busWrite bytes :: r)
      (hsend : SendsOpcode s bytes) :
      AgentMove s (((s.receive (bytes.take n)).emit (.writeFail bytes)).raise .busError)
  /-- A wait gives up (R207). -/
  | timedOut {r : List MicroStep} (h : PsqMoves s) (hrem : s.rem = .waitIdle :: r) :
      AgentMove s ((s.emit .timedOut).raise .timeout)

theorem mnemonicOfOp_ne_none : ∀ op ∈ assignedOps, mnemonicOfOp op ≠ none := by decide

/-- A command word decodes to a host operation, never to a panel opcode. -/
theorem hostMnemonic_ne_none {w : Word} {i : Instr} (h : decodeHost w = .instr i) : hostMnemonic i ≠ none := by
  rw [hostMnemonic_of_decodeHost h]
  exact mnemonicOfOp_ne_none _ (legalWord_of_decodeHost h).1

theorem agentMove_of_acceptWord {s t : State} {n : Nat} {w : Word} {r : List HostAct} (hrun : s.run = false)
    (hhost : s.host = .write n 0 4 w :: r) (h : acceptWord w { s with host := r } = .next t) : AgentMove s t := by
  have hmoves := hostMoves_of_idle hrun hhost
  rcases acceptWord_cases w { s with host := r } with ⟨i, hi, he⟩ | ⟨_, _, he⟩
  · rw [he] at h
    exact .accept hmoves ⟨hrun, n, w, r, hhost, hi⟩ (hostEffect_of_exec (hostMnemonic_ne_none hi) h)
  · rw [he] at h
    cases h
    exact .illegal hmoves hrun

theorem agentMove_of_hostStep {s t : State} {a : HostAct} {r : List HostAct} (hmoves : HostMoves s a r)
    (hcmd : s.run = true → a.isCommand = false) (hhost : s.run = false → s.host = a :: r)
    (h : hostStep a { s with host := r } = .next t) : AgentMove s t := by
  cases a with
  | blockReset => cases h; exact .reset hmoves
  | read n off width =>
    simp only [hostStep] at h
    split at h
    · cases h
    · cases h; exact .access hmoves
  | write n off width w =>
    by_cases hisCmd : off = 0 ∧ width = 4
    · obtain ⟨rfl, rfl⟩ := hisCmd
      have hrun : s.run = false := by simpa [HostAct.isCommand] using hcmd
      exact agentMove_of_acceptWord hrun (hhost hrun) h
    · simp only [hostStep] at h
      split at h
      · cases h
      next hrefusal =>
        have hoff : off ≠ 0 := by
          rintro rfl
          exact hisCmd ⟨rfl, not_not.1 fun hw => by simp [accessRefusal_width hw] at hrefusal⟩
        rw [if_neg hoff] at h
        cases h
        exact .access hmoves

theorem transferStep_of_sendsOpcode {bytes : List Byte} {s : State} (h : SendsOpcode s bytes) :
    transferStep bytes s = .next (s.busWrite bytes).settle := by
  cases hdc : s.dc with
  | data => exact transferStep_of_data hdc bytes
  | command =>
    obtain ⟨b, i, rfl, hi⟩ := isOpcodeTransfer_iff.1 (h hdc)
    rw [transferStep_of_opcode hdc hi, exec_of_mem_panelTable _ (mem_panelTable_of_decodePanel hi)]

theorem transferStep_of_not_sendsOpcode {bytes : List Byte} {s : State} (h : ¬ SendsOpcode s bytes) :
    transferStep bytes s = .fault .notPanelOpcode := by
  obtain ⟨hdc, hbytes⟩ := Classical.not_imp.1 h
  rcases transferStep_cases bytes s with ⟨hdata, _⟩ | ⟨i, _, hi, _⟩ | ⟨_, _, _, he⟩
  · cases hdc.symm.trans hdata
  · exact absurd (by rw [isOpcodeTransfer, hi]) hbytes
  · exact he

theorem agentMove_of_transferStep {s t : State} {bytes : List Byte} {r : List MicroStep} (hpsq : PsqMoves s)
    (hrem : s.rem = .busWrite bytes :: r) (h : transferStep bytes { s with rem := r } = .next t) : AgentMove s t := by
  by_cases hsend : SendsOpcode s bytes
  · rw [transferStep_of_sendsOpcode (s := { s with rem := r }) hsend] at h
    cases h
    rcases State.busWrite_cases bytes { s with rem := r } with ⟨_, hb⟩ | ⟨_, hb⟩
    · rw [hb]
      exact .done hpsq hrem fun _ he => MicroStep.busWrite.inj he ▸ hsend
    · rw [hb, settle_raise]
      exact .failed _ hpsq hrem hsend
  · rw [transferStep_of_not_sendsOpcode (s := { s with rem := r }) hsend] at h
    cases h

theorem agentMove_of_psqStep {s t : State} (hpsq : PsqMoves s) (h : psqStep s = .next t) : AgentMove s t := by
  rcases psqStep_cases s with
    ⟨hrem, he⟩ | ⟨_, r, hrem, he⟩ | ⟨_, r, hrem, he⟩ | ⟨_, r, hrem, he⟩ | ⟨_, r, hrem, he⟩ | ⟨r, hrem, he⟩
  · rw [he] at h
    cases h
    exact .finish hpsq hrem
  · rw [he, popRem_eq hrem] at h
    cases h
    exact .done hpsq hrem nofun
  · rw [he, popRem_eq hrem] at h
    cases h
    exact .done hpsq hrem nofun
  · rw [he, popRem_eq hrem] at h
    cases h
    exact .done hpsq hrem nofun
  · rw [he, popRem_eq hrem] at h
    exact agentMove_of_transferStep hpsq hrem h
  · rw [he] at h
    cases h
    rcases s.awaitIdle_cases with ⟨_, hw⟩ | ⟨_, _, _, hw⟩ | ⟨_, _, hw⟩
    · rw [hw, popRem_eq hrem]
      exact .done hpsq hrem nofun
    · rw [hw]
      exact .timedOut hpsq hrem
    · rw [hw]
      exact .stay

/-- Every step to a next state is one of the ways of `AgentMove`. -/
theorem agentMove_of_step {s t : State} (h : step s = .next t) : ∃ u, AgentMove s u ∧ t = u.advance := by
  obtain ⟨u, hu, ht⟩ := step_next.1 h
  refine ⟨u, ?_, ht⟩
  rcases agentStep_cases s with ⟨hrun, hhost, he⟩ | ⟨a, r, hmove, hfirst, hcmd, hhost, he⟩ | ⟨_, _, he⟩
  · exact agentMove_of_psqStep ⟨hrun, hhost⟩ (he ▸ hu)
  · exact agentMove_of_hostStep ⟨hmove, hfirst⟩ hcmd hhost (he ▸ hu)
  · rw [he] at hu
    cases hu
    exact .stay

end Sys2Proof.Safety
end

section
/-! SUPPORT. The invariant of the block (spec/10_state.md R22, R28, R30, spec/42_panel_link.md R155,
spec/60_exceptions.md R208, R215): it holds at reset and every step keeps it, and from it no step faults. -/

namespace Sys2Proof.Safety

open Sys2Proof.Machine

/-! ### The two kinds of states that meet the invariant -/

theorem blockInv_of_idle {s : State} (hfb : s.fb.wf = true) (herr : s.err ≠ .lineFault) (hrun : s.run = false)
    (hrem : s.rem = []) : BlockInv s :=
  ⟨hfb, herr, fun _ => hrem, by simp [hrun], by simp [hrun], by rw [hrem]; rfl⟩

/-- The lifecycle states of a running operation (R215). -/
def RunningLifecycle (s : State) : Prop :=
  (s.pstate = .uninitialized ∧ s.onEnd = .ready) ∨ (s.pstate = .ready ∧ (s.onEnd = .ready ∨ s.onEnd = .sleeping))

theorem blockInv_of_running {s : State} (hfb : s.fb.wf = true) (hrun : s.run = true) (herr : s.err = .noError)
    (hne : s.rem ≠ []) (hlife : RunningLifecycle s) (hok : writesOk s.build.maxChunk (some s.dc) s.rem = true) :
    BlockInv s :=
  ⟨hfb, by simp [herr], by simp [hrun], fun _ => ⟨hne, herr⟩, fun _ => hlife, hok⟩

/-- Settles O48: reset is an idle state with an empty frame memory. -/
theorem resetSatisfiesInv : Obligations.ResetSatisfiesInv := blockInv_of_idle rfl (by decide) rfl rfl

/-! ### Micro-steps keep transfers well made -/

theorem writesOk_busWrite {max : Nat} {d : DcMode} {bytes : List Byte} {r : List MicroStep} :
    writesOk max (some d) (.busWrite bytes :: r) = true ↔
      (bytes ≠ [] ∧ bytes.length ≤ max) ∧ (d = .command → isOpcodeTransfer bytes = true) ∧
        writesOk max (some d) r = true := by
  cases d <;> simp [writesOk, and_assoc]

theorem writesOk_performed {max : Nat} {m : MicroStep} {r : List MicroStep} {s : State}
    (h : writesOk max (some s.dc) (m :: r) = true) : writesOk max (some (performed m s).dc) r = true := by
  cases m with
  | busWrite => exact (writesOk_busWrite.1 h).2.2
  | setDC | setRst | delay | waitIdle => exact h

theorem sendsOpcode_of_writesOk {max : Nat} {bytes : List Byte} {r : List MicroStep} {s : State}
    (h : writesOk max (some s.dc) (.busWrite bytes :: r) = true) : SendsOpcode s bytes :=
  (writesOk_busWrite.1 h).2.1

/-! ### The invariant is kept -/

theorem blockInv_of_hostEffect {s t : State} {i : Instr} (hinv : BlockInv s) (hrun : s.run = false)
    (h : HostEffect s i t) : BlockInv t := by
  obtain ⟨hfb, _, hidle, _⟩ := hinv
  have hrem : s.rem = [] := hidle hrun
  cases h with
  | value | setpxOut | setbg => exact blockInv_of_idle hfb Err.noConfusion rfl hrem
  | fbinit => exact blockInv_of_idle Memory.wf_nil Err.noConfusion rfl hrem
  | setpx hr => exact blockInv_of_idle (Memory.wf_write hfb (byteIndex_lt_fbLen hr)) Err.noConfusion rfl hrem
  | error _ hline => exact blockInv_of_idle hfb hline rfl rfl
  | launchInit =>
    have hne : initSteps s.build s.input.cuts ≠ [] := by simp [initSteps, resetPulse]
    exact blockInv_of_running hfb rfl rfl hne (.inl ⟨rfl, rfl⟩) (loadOk_initSteps _ _ _)
  | launch _ hs hp hne hok => exact blockInv_of_running hfb rfl rfl hne (.inr ⟨hs, hp⟩) (hok _)

theorem blockInv_of_agentMove {s t : State} (hinv : BlockInv s) (h : AgentMove s t) : BlockInv t := by
  have hkeep := hinv
  obtain ⟨hfb, herr, hidle, hrunning, hlife, hok⟩ := hkeep
  cases h with
  | stay => exact hinv
  | access => exact hinv
  | reset => exact blockInv_of_idle Memory.wf_nil Err.noConfusion rfl rfl
  | accept _ hi ht =>
    obtain ⟨hrun, _⟩ := hi
    refine blockInv_of_hostEffect ?_ ?_ ht
    · exact hinv
    · exact hrun
  | illegal => exact blockInv_of_idle hfb Err.noConfusion rfl rfl
  | finish _ hrem => exact blockInv_of_idle hfb Err.noConfusion rfl hrem
  | failed | timedOut => exact blockInv_of_idle hfb Err.noConfusion rfl rfl
  | @done m r hpsq hrem =>
    obtain ⟨hrun, _⟩ := hpsq
    rw [hrem] at hok
    by_cases hr : r = []
    · rw [settle_of_rem_eq_nil (by simpa using hrun) (by simpa using hr)]
      exact blockInv_of_idle (by simpa using hfb) Err.noConfusion rfl (by simpa using hr)
    · rw [settle_of_rem_ne_nil (by simpa using hr)]
      refine blockInv_of_running (by simpa using hfb) (by simpa using hrun) ?_ (by simpa using hr) ?_ ?_
      · simpa using (hrunning hrun).2
      · simpa [RunningLifecycle] using hlife hrun
      · simpa using writesOk_performed (s := { s with rem := r }) hok

/-- The draws play no part in the invariant. -/
theorem blockInv_advance {s : State} (h : BlockInv s) : BlockInv s.advance := h

/-- Settles O49: each way a step can go on keeps the invariant. -/
theorem stepKeepsInv : Obligations.StepKeepsInv := by
  intro s t hinv h
  obtain ⟨u, hu, rfl⟩ := agentMove_of_step h
  exact blockInv_advance (blockInv_of_agentMove hinv hu)

/-! ### No step faults (R97) -/

theorem exec_ne_fault (i : Instr) (s : State) (r : Fault) : exec i s ≠ .fault r := by
  intro h
  cases i <;> cases h

theorem acceptWord_ne_fault (w : Word) (s : State) (r : Fault) : acceptWord w s ≠ .fault r := by
  rcases acceptWord_cases w s with ⟨i, _, he⟩ | ⟨_, _, he⟩ <;> rw [he]
  · exact exec_ne_fault i s r
  · exact nofun

theorem hostStep_ne_fault (a : HostAct) (s : State) (r : Fault) : hostStep a s ≠ .fault r := by
  rcases hostStep_cases a s with ⟨_, he⟩ | ⟨_, _, he⟩ | ⟨_, w, _, he⟩ | he | he <;> rw [he]
  · exact nofun
  · exact nofun
  · exact acceptWord_ne_fault w s r
  · exact nofun
  · exact nofun

theorem psqStep_ne_fault {s : State} (hok : writesOk s.build.maxChunk (some s.dc) s.rem = true) (r : Fault) :
    psqStep s ≠ .fault r := by
  rcases psqStep_cases s with
    ⟨_, he⟩ | ⟨_, _, _, he⟩ | ⟨_, _, _, he⟩ | ⟨_, _, _, he⟩ | ⟨bytes, _, hrem, he⟩ | ⟨_, _, he⟩ <;> rw [he]
  · exact nofun
  · exact nofun
  · exact nofun
  · exact nofun
  · have hsend : SendsOpcode s bytes := sendsOpcode_of_writesOk (hrem ▸ hok)
    rw [transferStep_of_sendsOpcode (s := s.popRem) hsend]
    exact nofun
  · exact nofun

/-- Settles O50: the invariant says of the head of REM what R97 says of what is sent. -/
theorem invStatesStepSafely : Obligations.InvStatesStepSafely := by
  rintro s ⟨_, _, _, _, _, hok⟩ r h
  have hfault : agentStep s = .fault r := mapNext_fault.1 h
  rcases agentStep_cases s with ⟨_, _, he⟩ | ⟨a, rest, _, _, _, _, he⟩ | ⟨_, _, he⟩ <;> rw [he] at hfault
  · exact psqStep_ne_fault hok r hfault
  · exact hostStep_ne_fault a _ r hfault
  · cases hfault

/-! ### The lifecycle (R215) -/

/-- Of the operations only INIT and WAKE write PSTATE at acceptance. -/
theorem init_or_wake_of_pstate_ne {s t : State} {i : Instr} (h : HostEffect s i t)
    (hne : t.pstate ≠ s.pstate) : (i = .init ∨ i = .wake) ∧ t.pstate = .uninitialized ∧ t.run = true := by
  cases h with
  | launchInit hi => exact ⟨hi, rfl, rfl⟩
  | error he =>
    rw [State.raise_pstate, he] at hne
    exact absurd rfl hne
  | value | fbinit | setpx | setpxOut | setbg | launch => exact absurd rfl hne

/-- Settles O51: PSTATE is written by block reset, by INIT and WAKE, by the end of an operation and by the abort of a
micro-step; the invariant says what a running operation can write at its end. -/
theorem lifecycleTransitionsAreComplete : Obligations.LifecycleTransitionsAreComplete := by
  intro s t hinv h hne
  obtain ⟨u, hu, rfl⟩ := agentMove_of_step h
  obtain ⟨_, _, _, hrunning, hlife, _⟩ := hinv
  cases hu with
  | stay | access | illegal => exact absurd rfl hne
  | reset hreset => exact .inl ⟨⟨_, hreset⟩, rfl⟩
  | accept _ hi ht =>
    obtain ⟨hinit, hp, hrun⟩ := init_or_wake_of_pstate_ne ht hne
    refine .inr (.inl ⟨?_, hp, hrun⟩)
    rcases hinit with rfl | rfl
    · exact .inl hi
    · exact .inr hi
  | finish hpsq hrem => exact absurd hrem (hrunning hpsq.1).1
  | failed _ hpsq => exact .inr (.inr (.inr (.inr ⟨hpsq.1, rfl, rfl, .inl rfl⟩)))
  | timedOut hpsq => exact .inr (.inr (.inr (.inr ⟨hpsq.1, rfl, rfl, .inr rfl⟩)))
  | @done m r hpsq hrem =>
    rcases (performed m { s with rem := r }).settle_cases with ⟨_, _, hs⟩ | ⟨_, hs⟩
    · rw [hs] at hne ⊢
      rcases hlife hpsq.1 with ⟨hp, he⟩ | ⟨hp, he | he⟩
      · exact .inr (.inr (.inl ⟨hpsq.1, he, hp, by simp [he], rfl, rfl⟩))
      · simp [hp, he] at hne
      · exact .inr (.inr (.inr (.inl ⟨hpsq.1, he, hp, by simp [he], rfl, rfl⟩)))
    · rw [hs] at hne
      exact absurd (performed_pstate m _) hne

end Sys2Proof.Safety
end

section
/-! SUPPORT. What every step leaves unchanged (spec/10_state.md R25, R26, R29, R31, spec/41_framebuffer.md R137): each
field of the block is written by the agents' moves that the rules name and by no others. -/

namespace Sys2Proof.Safety

open Sys2Proof.Machine

/-! ### At acceptance -/

/-- Acceptance drives no line, sends nothing and leaves the host's side and the build. -/
theorem frame_of_hostEffect {s t : State} {i : Instr} (h : HostEffect s i t) :
    t.dc = s.dc ∧ t.rst = s.rst ∧ t.trace = s.trace ∧ t.rx = s.rx ∧ t.build = s.build ∧ t.host = s.host := by
  cases h <;> exact ⟨rfl, rfl, rfl, rfl, rfl, rfl⟩

/-- Settles O52: of the ways a step can go on three write the frame memory. -/
theorem onlyFbinitSetpxAndResetChangeTheFrame : Obligations.OnlyFbinitSetpxAndResetChangeTheFrame := by
  intro s t h hne
  obtain ⟨u, hu, rfl⟩ := agentMove_of_step h
  cases hu with
  | reset hreset => exact .inl ⟨_, hreset⟩
  | accept _ hi ht =>
    cases ht with
    | fbinit => exact .inr (.inl hi)
    | setpx hr =>
      refine .inr (.inr ⟨_, _, _, hi, hr, fun hfb a ha => ?_⟩)
      exact (read_frameAfterSetpx (s := { s with host := _ }) hfb _ _ _ a).trans (if_neg ha)
    | value | setpxOut | setbg | launchInit | launch | error => exact absurd rfl hne
  | stay | access | illegal | finish | failed | timedOut => exact absurd rfl hne
  | done => simp at hne

/-- Settles O53: of the ways a step can go on two write BG. -/
theorem onlySetbgAndResetChangeBg : Obligations.OnlySetbgAndResetChangeBg := by
  intro s t h hne
  obtain ⟨u, hu, rfl⟩ := agentMove_of_step h
  cases hu with
  | reset hreset => exact .inl ⟨_, hreset⟩
  | accept _ hi ht =>
    cases ht with
    | setbg => exact .inr ⟨_, hi, rfl⟩
    | value | fbinit | setpx | setpxOut | launchInit | launch | error => exact absurd rfl hne
  | stay | access | illegal | finish | failed | timedOut => exact absurd rfl hne
  | done => simp at hne

/-- Settles O54: of the ways a step can go on two write RESULT. -/
theorem onlyValueOperationsChangeResult : Obligations.OnlyValueOperationsChangeResult := by
  intro s t h hne
  obtain ⟨u, hu, rfl⟩ := agentMove_of_step h
  cases hu with
  | reset hreset => exact .inl ⟨_, hreset⟩
  | accept _ hi ht =>
    cases ht with
    | value _ hvalue => exact .inr ⟨_, hi, hvalue, rfl⟩
    | fbinit | setpx | setpxOut | setbg | launchInit | launch | error => exact absurd rfl hne
  | stay | access | illegal | finish | failed | timedOut => exact absurd rfl hne
  | done => simp at hne

/-! ### The latches and the trace -/

@[simp] theorem performed_setDC_dc (d : DcMode) (s : State) : (performed (.setDC d) s).dc = d := rfl

@[simp] theorem performed_setRst_rst (l : Bool) (s : State) : (performed (.setRst l) s).rst = l := rfl

theorem setDC_of_dc_ne {m : MicroStep} {s : State} (h : (performed m s).dc ≠ s.dc) : ∃ d, m = .setDC d := by
  cases m with
  | setDC d => exact ⟨d, rfl⟩
  | setRst | delay | busWrite | waitIdle => exact absurd rfl h

theorem setRst_of_rst_ne {m : MicroStep} {s : State} (h : (performed m s).rst ≠ s.rst) : ∃ l, m = .setRst l := by
  cases m with
  | setRst l => exact ⟨l, rfl⟩
  | setDC | delay | busWrite | waitIdle => exact absurd rfl h

/-- Settles O55: acceptance drives no line, and of the micro-steps one kind drives each. -/
theorem onlyLineMicroStepsChangeTheLatches : Obligations.OnlyLineMicroStepsChangeTheLatches := by
  intro s t h
  obtain ⟨u, hu, rfl⟩ := agentMove_of_step h
  cases hu with
  | reset hreset => exact ⟨fun _ => .inl ⟨_, hreset⟩, fun _ => .inl ⟨_, hreset⟩⟩
  | accept _ _ ht =>
    obtain ⟨hdc, hrst, _⟩ := frame_of_hostEffect ht
    exact ⟨fun hne => absurd hdc hne, fun hne => absurd hrst hne⟩
  | @done m r hpsq hrem =>
    refine ⟨fun hne => .inr ?_, fun hne => .inr ?_⟩
    · rw [State.advance_dc, settle_dc] at hne ⊢
      obtain ⟨d, rfl⟩ := setDC_of_dc_ne hne
      exact ⟨⟨hpsq, r, hrem⟩, by simp [MicroStep.event]⟩
    · rw [State.advance_rst, settle_rst] at hne ⊢
      obtain ⟨l, rfl⟩ := setRst_of_rst_ne hne
      exact ⟨⟨hpsq, r, hrem⟩, by simp [MicroStep.event]⟩
  | stay | access | illegal | finish | failed | timedOut => exact ⟨absurd rfl, absurd rfl⟩

/-- Settles O56: only a micro-step emits, and nothing writes the build. -/
theorem stepEmitsAtMostOneEvent : Obligations.StepEmitsAtMostOneEvent := by
  intro s t h
  obtain ⟨u, hu, rfl⟩ := agentMove_of_step h
  cases hu with
  | stay | access | reset | illegal | finish => exact ⟨rfl, .inl rfl⟩
  | accept _ _ ht =>
    obtain ⟨_, _, htrace, _, hbuild, _⟩ := frame_of_hostEffect ht
    exact ⟨hbuild, .inl htrace⟩
  | failed _ hpsq | timedOut hpsq => exact ⟨rfl, .inr ⟨hpsq, _, rfl⟩⟩
  | @done m r hpsq => exact ⟨by simp, .inr ⟨hpsq, m.event, by simp⟩⟩

/-! ### The host's side (R58, R245) -/

theorem host_of_agentMove {s t : State} (h : AgentMove s t) : t.host = s.host ∨ ∃ a, HostMoves s a t.host := by
  cases h with
  | stay | finish | failed | timedOut => exact .inl rfl
  | done => exact .inl (by simp)
  | access hmoves | reset hmoves | illegal hmoves => exact .inr ⟨_, hmoves⟩
  | accept hmoves _ ht =>
    obtain ⟨_, _, _, _, _, hhost⟩ := frame_of_hostEffect ht
    exact .inr ⟨_, by rw [hhost]; exact hmoves⟩

/-- An access behind a held CMD write that does not wait can be made. -/
theorem hostMoves_behind_cmd {s : State} {n : Nat} {w : Word} {a : HostAct} {rest : List HostAct} (hrun : s.run = true)
    (hhost : s.host = .write n 0 4 w :: a :: rest) (hcmd : a.isCommand = false) (hagent : a.agent ≠ some n)
    (hfirst : s.input.hostFirst = true) : HostMoves s a (.write n 0 4 w :: rest) := by
  refine ⟨?_, .inr hfirst⟩
  have hnow : firstUnheld [n] (a :: rest) = some (a, rest) := by simp [firstUnheld, not_waits hcmd hagent]
  rw [hostMove_of_run hrun, hhost, firstUnheld_cmd_cons, hnow]
  rfl

/-- Settles O40: the write is never what moves, so it stays first; PSQ moves if all that is behind it waits. -/
theorem commandIsHeldWhileRunning : Obligations.CommandIsHeldWhileRunning := by
  intro s n w rest hrun hhost
  refine ⟨fun t h => ?_, fun hrest => ?_, fun a r hmoves => ?_, fun a rest' he hcmd hagent hfirst => ?_⟩
  · obtain ⟨u, hu, rfl⟩ := agentMove_of_step h
    rcases host_of_agentMove hu with hsame | ⟨a, hmoves⟩
    · exact ⟨rest, hsame.trans hhost⟩
    · obtain ⟨_, before, after, _, hr, _⟩ := before_of_hostMoves hrun hhost hmoves
      exact ⟨before ++ after, hr⟩
  · exact step_of_psqMoves ⟨hrun, .inl (hostMove_eq_none hrun hhost hrest)⟩
  · obtain ⟨hcmd, before, after, hsplit, hr, hagents⟩ := before_of_hostMoves hrun hhost hmoves
    have hagent : some n ≠ a.agent := hagents _ List.mem_cons_self
    exact ⟨hcmd, hagent.symm, ⟨_, after, hsplit, hr, hagents⟩, step_of_hostMoves hmoves⟩
  · subst he
    exact hostMoves_behind_cmd hrun hhost hcmd hagent hfirst

end Sys2Proof.Safety
end

section
/-! SUPPORT. The panel trace and the bytes the panel received (spec/00_scope.md R10, spec/42_panel_link.md R155,
spec/30_encoding.md R97): reading a trace with one event more, and the two invariants of what was sent. -/

namespace Sys2Proof.Safety

open Sys2Proof.Machine

/-! ### A trace with one event more -/

theorem modeAfter_append (m : Option DcMode) (t u : List Event) :
    modeAfter m (t ++ u) = modeAfter (modeAfter m t) u := by
  induction t generalizing m with
  | nil => rfl
  | cons e t ih => cases e <;> exact ih _

theorem streamFrom_append (m : Option DcMode) (t u : List Event) :
    streamFrom m (t ++ u) = streamFrom m t ++ streamFrom (modeAfter m t) u := by
  induction t generalizing m with
  | nil => rfl
  | cons e t ih =>
    cases e with
    | write bytes =>
      rw [List.cons_append, streamFrom, streamFrom, ih, List.append_assoc]
      rfl
    | setDC | setRst | delay | writeFail | idle | timedOut => exact ih _

theorem hasWriteFail_append (t u : List Event) : hasWriteFail (t ++ u) = (hasWriteFail t || hasWriteFail u) :=
  List.any_append

theorem hasWriteFail_event (m : MicroStep) : hasWriteFail [m.event] = false := by cases m <;> rfl

/-! ### The latch is the latest SetDC -/

/-- The first half of `TraceInv`. -/
def LatchTraced (s : State) : Prop :=
  modeAfter none s.trace = some s.dc ∨ writesOk s.build.maxChunk none s.rem = true

/-- The second half of `TraceInv`. -/
def StreamReceived (s : State) : Prop :=
  hasWriteFail s.trace = false → stream s.trace = s.rx.map (fun p => (some p.1, p.2))

theorem latchTraced_of_rem_eq_nil {s : State} (hrem : s.rem = []) : LatchTraced s := .inr (by rw [hrem]; rfl)

theorem modeAfter_event (m : MicroStep) (s : State) : modeAfter (some s.dc) [m.event] = some (performed m s).dc := by
  cases m <;> rfl

/-- Before the first SetDC of a list there is no transfer, and behind it the latch is what it drives. -/
theorem latchTraced_event {max : Nat} {m : MicroStep} {r : List MicroStep} (h : writesOk max none (m :: r) = true)
    (mode : Option DcMode) (s : State) :
    modeAfter mode [m.event] = some (performed m s).dc ∨ writesOk max none r = true := by
  cases m with
  | setDC => exact .inl rfl
  | setRst | delay | waitIdle => exact .inr h
  | busWrite => simp [writesOk] at h

theorem latchTraced_done {s : State} {m : MicroStep} {r : List MicroStep} (h : LatchTraced s) (hrem : s.rem = m :: r) :
    LatchTraced (performed m { s with rem := r }).settle := by
  unfold LatchTraced at h ⊢
  rw [settle_trace, settle_dc, settle_build, settle_rem, performed_trace, performed_build, performed_rem,
    modeAfter_append]
  rcases h with hmode | hok
  · rw [hmode]
    exact .inl (modeAfter_event m { s with rem := r })
  · exact latchTraced_event (hrem ▸ hok) _ _

theorem latchTraced_of_hostEffect {s t : State} {i : Instr} (hrem : s.rem = []) (h : HostEffect s i t) :
    LatchTraced t := by
  cases h with
  | value | fbinit | setpx | setpxOut | setbg => exact latchTraced_of_rem_eq_nil hrem
  | error => exact latchTraced_of_rem_eq_nil rfl
  | launchInit => exact .inr (loadOk_initSteps _ _ none)
  | launch _ _ _ _ hok => exact .inr (hok none)

/-! ### The stream is what was received -/

/-- The bytes a micro-step that goes well sends (R155). -/
def sentBytes : MicroStep → List Byte
  | .busWrite bytes => bytes
  | .setDC _ | .setRst _ | .delay _ | .waitIdle => []

theorem performed_rx (m : MicroStep) (s : State) :
    (performed m s).rx = s.rx ++ (sentBytes m).map (fun b => (s.dc, b)) := by
  cases m with
  | busWrite => rfl
  | setDC | setRst | delay | waitIdle => exact (List.append_nil _).symm

theorem streamFrom_event (mode : Option DcMode) (m : MicroStep) :
    streamFrom mode [m.event] = (sentBytes m).map (fun b => (mode, b)) := by
  cases m with
  | busWrite => exact List.append_nil _
  | setDC | setRst | delay | waitIdle => rfl

theorem streamReceived_done {s : State} {m : MicroStep} {r : List MicroStep} (hlatch : LatchTraced s)
    (h : StreamReceived s) (hrem : s.rem = m :: r) : StreamReceived (performed m { s with rem := r }).settle := by
  intro hfail
  rw [settle_trace, performed_trace] at hfail ⊢
  rw [hasWriteFail_append, hasWriteFail_event, Bool.or_false] at hfail
  have hmode : (sentBytes m).map (fun b => (modeAfter none s.trace, b)) =
      (sentBytes m).map (fun b => (some s.dc, b)) := by
    rcases hlatch with hmode | hok
    · rw [hmode]
    · rw [hrem] at hok
      cases m with
      | busWrite => simp [writesOk] at hok
      | setDC | setRst | delay | waitIdle => rfl
  have hstream : stream s.trace = s.rx.map (fun p => (some p.1, p.2)) := h hfail
  rw [settle_rx, performed_rx, List.map_append, List.map_map, ← hstream, stream, streamFrom_append, streamFrom_event,
    hmode]
  rfl

theorem streamReceived_of_hostEffect {s t : State} {i : Instr} (h : StreamReceived s) (ht : HostEffect s i t) :
    StreamReceived t := by
  obtain ⟨_, _, htrace, hrx, _⟩ := frame_of_hostEffect ht
  rw [StreamReceived, htrace, hrx]
  exact h

theorem traceInv_of_agentMove {s t : State} (hinv : BlockInv s) (h : TraceInv s) (ht : AgentMove s t) : TraceInv t := by
  obtain ⟨_, _, hidle, _⟩ := hinv
  have hkeep := h
  obtain ⟨hlatch, hstream⟩ := hkeep
  cases ht with
  | stay | access => exact h
  | reset | illegal => exact ⟨latchTraced_of_rem_eq_nil rfl, hstream⟩
  | @accept _ _ _ r _ hi ht =>
    obtain ⟨hrun, _⟩ := hi
    exact ⟨latchTraced_of_hostEffect (s := { s with host := r }) (hidle hrun) ht,
      streamReceived_of_hostEffect (s := { s with host := r }) hstream ht⟩
  | finish _ hrem => exact ⟨latchTraced_of_rem_eq_nil hrem, hstream⟩
  | done _ hrem => exact ⟨latchTraced_done hlatch hrem, streamReceived_done hlatch hstream hrem⟩
  | @failed bytes =>
    have hfail : hasWriteFail (s.trace ++ [.writeFail bytes]) = true := by
      rw [hasWriteFail_append]
      exact Bool.or_true _
    exact ⟨latchTraced_of_rem_eq_nil rfl, fun hno => absurd hfail (Bool.eq_false_iff.1 hno)⟩
  | timedOut =>
    refine ⟨latchTraced_of_rem_eq_nil rfl, fun hno => ?_⟩
    have hbefore : hasWriteFail s.trace = false := (Bool.or_eq_false_iff.1 ((hasWriteFail_append _ _).symm.trans hno)).1
    exact (streamFrom_append none s.trace [.timedOut]).trans ((List.append_nil _).trans (hstream hbefore))

theorem traceInv_advance {s : State} (h : TraceInv s) : TraceInv s.advance := h

/-- Settles O57: a transfer stands behind a SetDC, so that the stream tags its bytes with the latch, as the panel's
record does. -/
theorem streamIsWhatThePanelReceived : Obligations.StreamIsWhatThePanelReceived := by
  refine ⟨⟨latchTraced_of_rem_eq_nil rfl, fun _ => rfl⟩, fun s t hinv htrace h => ?_⟩
  obtain ⟨u, hu, rfl⟩ := agentMove_of_step h
  exact traceInv_advance (traceInv_of_agentMove hinv htrace hu)

/-! ### Bytes received in command mode (R97) -/

theorem isOpcodeTransfer_of_mem {bytes : List Byte} {b : Byte} (h : isOpcodeTransfer bytes = true) (hb : b ∈ bytes) :
    isOpcodeTransfer [b] = true := by
  obtain ⟨b', _, rfl, _⟩ := isOpcodeTransfer_iff.1 h
  rw [List.mem_singleton.1 hb]
  exact h

/-- Any part of a transfer that keeps R97 may arrive. -/
theorem commandBytesOk_receive {s : State} {bytes arrived : List Byte} (h : CommandBytesOk s)
    (hsend : SendsOpcode s bytes) (hsub : ∀ b ∈ arrived, b ∈ bytes) : CommandBytesOk (s.receive arrived) := by
  intro p hp hmode
  rcases List.mem_append.1 hp with hold | hnew
  · exact h p hold hmode
  · obtain ⟨b, hb, rfl⟩ := List.mem_map.1 hnew
    exact isOpcodeTransfer_of_mem (hsend hmode) (hsub b hb)

theorem commandBytesOk_congr {s t : State} (h : CommandBytesOk s) (hrx : t.rx = s.rx) : CommandBytesOk t := by
  rw [CommandBytesOk, hrx]
  exact h

theorem commandBytesOk_performed {m : MicroStep} {s : State} (h : CommandBytesOk s)
    (hsend : ∀ bytes, m = .busWrite bytes → SendsOpcode s bytes) : CommandBytesOk (performed m s) := by
  cases m with
  | busWrite bytes => exact commandBytesOk_receive h (hsend bytes rfl) fun _ hb => hb
  | setDC | setRst | delay | waitIdle => exact h

/-- Settles O58: a transfer of more than an opcode in command mode stops the machine before it is sent. -/
theorem commandBytesAreAlwaysOpcodes : Obligations.CommandBytesAreAlwaysOpcodes := by
  refine ⟨nofun, fun s t h hstep => ?_⟩
  obtain ⟨u, hu, rfl⟩ := agentMove_of_step hstep
  cases hu with
  | stay | access | reset | illegal | finish | timedOut => exact h
  | accept _ _ ht =>
    obtain ⟨_, _, _, hrx, _⟩ := frame_of_hostEffect ht
    exact commandBytesOk_congr h hrx
  | failed _ _ _ hsend => exact commandBytesOk_receive h hsend fun _ hb => List.mem_of_mem_take hb
  | @done m r _ _ hsend =>
    exact commandBytesOk_congr (commandBytesOk_performed (s := { s with rem := r }) h hsend) (settle_rx _)

end Sys2Proof.Safety
end

section
/-! SUPPORT. Runs of many steps (spec/43_panel_driver.md R170, spec/70_reset_and_hazards.md R236, R244): an operation
that nothing holds up ends in one step per micro-step, and one whose wait is never granted never ends. -/

namespace Sys2Proof.Safety

open Sys2Proof.Machine

theorem run_succ {s t : State} (h : step s = .next t) (k : Nat) :
    Sys2Proof.core.run (k + 1) s = Sys2Proof.core.run k t := by
  have hcore : Sys2Proof.core.step s = .next t := h
  simp only [Host.Core.run, hcore]

/-- The draw of a step is the first of those fixed in advance, and the others are left for the next steps. -/
theorem draws_head {P : EnvIn → Prop} {s : State} {k : Nat} (hlen : k + 1 ≤ s.inputs.length)
    (hdraws : ∀ e ∈ s.inputs.take (k + 1), P e) :
    P s.input ∧ k ≤ s.inputs.tail.length ∧ ∀ e ∈ s.inputs.tail.take k, P e := by
  cases hin : s.inputs with
  | nil => simp [hin] at hlen
  | cons e es =>
    rw [hin] at hlen hdraws
    rw [State.input_cons hin]
    obtain ⟨hhead, htail⟩ := List.forall_mem_cons.1 hdraws
    exact ⟨hhead, Nat.le_of_succ_le_succ hlen, htail⟩

/-! ### An operation that is granted everything -/

theorem writesOk_of_blockInv {s : State} : BlockInv s → writesOk s.build.maxChunk (some s.dc) s.rem = true := by
  rintro ⟨_, _, _, _, _, hok⟩
  exact hok

theorem step_granted {s : State} {m : MicroStep} {r : List MicroStep} (hpsq : PsqMoves s) (hrem : s.rem = m :: r)
    (hok : writesOk s.build.maxChunk (some s.dc) s.rem = true) (hgrant : Granted s.build s.input = true) :
    step s = .next (performed m { s with rem := r }).settle.advance := by
  obtain ⟨hbusy, hxfer⟩ := Bool.and_eq_true_iff.1 hgrant
  rw [step_of_psqMoves hpsq]
  cases m with
  | setDC =>
    rw [psqStep_setDC hrem, popRem_eq hrem]
    rfl
  | setRst =>
    rw [psqStep_setRst hrem, popRem_eq hrem]
    rfl
  | delay =>
    rw [psqStep_delay hrem, popRem_eq hrem]
    rfl
  | waitIdle =>
    rw [psqStep_waitIdle hrem, awaitIdle_of_ready (beq_iff_eq.1 hbusy), popRem_eq hrem]
    rfl
  | busWrite bytes =>
    have hsend : SendsOpcode s bytes := sendsOpcode_of_writesOk (hrem ▸ hok)
    rw [psqStep_busWrite hrem, popRem_eq hrem, transferStep_of_sendsOpcode (s := { s with rem := r }) hsend,
      busWrite_of_xferOk (s := { s with rem := r }) hxfer]
    rfl

/-- `t` is the end of the operation that runs in `s`, with every micro-step of REM performed. -/
def EndOf (s t : State) : Prop :=
  t.run = false ∧ t.err = .noError ∧ t.rem = [] ∧ t.pstate = s.onEnd ∧
    t.trace = s.trace ++ s.rem.map MicroStep.event ∧ t.fb = s.fb ∧ t.bg = s.bg ∧ t.result = s.result

theorem endOf_last {s : State} {m : MicroStep} (hrun : s.run = true) (hrem : s.rem = [m]) :
    EndOf s (performed m { s with rem := [] }).settle.advance := by
  rw [settle_of_rem_eq_nil (by simpa using hrun) (by simp)]
  simp [EndOf, hrem]

theorem endOf_cons {s t : State} {m : MicroStep} {r : List MicroStep} (hrem : s.rem = m :: r)
    (h : EndOf (performed m { s with rem := r }).advance t) : EndOf s t := by
  simpa [EndOf, hrem] using h

theorem run_granted {l : List MicroStep} : ∀ {s : State}, s.rem = l → BlockInv s → s.run = true → s.host = [] →
    l.length ≤ s.inputs.length → (∀ e ∈ s.inputs.take l.length, Granted s.build e = true) →
    ∃ t, Sys2Proof.core.run l.length s = .next t ∧ EndOf s t := by
  induction l with
  | nil =>
    rintro s hrem ⟨_, _, _, hrunning, _⟩ hrun
    exact absurd hrem (hrunning hrun).1
  | cons m r ih =>
    intro s hrem hinv hrun hhost hlen hdraws
    obtain ⟨hgrant, hlen', hdraws'⟩ := draws_head hlen hdraws
    have hpsq : PsqMoves s := ⟨hrun, .inl (by rw [hostMove_of_run hrun, hhost]; rfl)⟩
    have hstep := step_granted hpsq hrem (writesOk_of_blockInv hinv) hgrant
    rw [List.length_cons, run_succ hstep]
    by_cases hr : r = []
    · subst hr
      exact ⟨_, rfl, endOf_last hrun hrem⟩
    · have hinv' := stepKeepsInv s _ hinv hstep
      rw [settle_of_rem_ne_nil (by simpa using hr)] at hinv' ⊢
      obtain ⟨t, ht, hend⟩ := ih (by simp) hinv' (by simpa using hrun) (by simpa using hhost) (by simpa using hlen')
        (by simpa using hdraws')
      exact ⟨t, ht, endOf_cons hrem hend⟩

/-- Settles O59: by induction on REM, one step for its head. -/
theorem grantedOperationRunsToItsEnd : Obligations.GrantedOperationRunsToItsEnd := fun _ hinv hrun hhost hlen hdraws =>
  run_granted rfl hinv hrun hhost hlen hdraws

/-! ### A wait that is never granted -/

theorem step_stuck {s : State} {r : List MicroStep} (hpsq : PsqMoves s) (hrem : s.rem = .waitIdle :: r)
    (hbuild : s.build.waitTimeoutMs = none) (hbusy : s.input.busy ≠ s.build.busyIsLow) : step s = .next s.advance := by
  rw [step_of_psqMoves hpsq, psqStep_waitIdle hrem, awaitIdle_of_held hbusy (.inl hbuild)]
  rfl

/-- Settles O60: by induction on the steps, each of which uses up a draw and does no more. -/
theorem stuckBusyInputHangsTheBlock : Obligations.StuckBusyInputHangsTheBlock := by
  intro k
  induction k with
  | zero => exact fun s _ _ _ _ hrun _ _ _ _ _ _ => ⟨s, rfl, hrun, rfl, rfl, rfl⟩
  | succ k ih =>
    intro s n w r rest hrun hrem hhost hrest hbuild hlen hdraws
    obtain ⟨hbusy, hlen', hdraws'⟩ := draws_head hlen hdraws
    have hpsq : PsqMoves s := ⟨hrun, .inl (hostMove_eq_none hrun hhost hrest)⟩
    rw [run_succ (step_stuck hpsq hrem hbuild hbusy)]
    exact ih s.advance n w r rest hrun hrem hhost hrest hbuild hlen' hdraws'

end Sys2Proof.Safety
end
